-- ==== Sys2Proof/Word.lean ====
section
/-! DEFINITION. The data the block moves: bytes, nibbles and the display request (00_scope R11, 41 R110). -/
namespace Sys2Proof

/-- A byte: 8 bits, unsigned, bit 0 the least significant (R11). -/
abbrev Byte := BitVec 8

/-- A 4-bit value: a digit, an enable mask or a decimal-point mask (R8 `DIGIT_W`, `MASK_W`). -/
abbrev Nibble := BitVec 4

/-- A DisplayRequest (R110): four digit values by position, the digit-enable mask and the decimal-point mask.
Every value of every field is legal. -/
structure DisplayRequest where
  d0 : Nibble
  d1 : Nibble
  d2 : Nibble
  d3 : Nibble
  en : Nibble
  dp : Nibble
deriving DecidableEq, Repr, Inhabited

end Sys2Proof
end

