-- ==== Sys2Proof/Config.lean ====
section
/-! DEFINITION. The configuration `Cfg` of 00_scope R9 with its constraints, the illustrative `CFG_REF` of
92_eei_decisions.md D12, and the free values of the model (93_implementation_defined.md U1, U2). -/
namespace Sys2Proof

/-- The parameters the source names but gives no value for (R9). Plain data; `Cfg.Valid` is their constraint.
`SELECT_ALL` is fixed by decision D10 and stands in Decode.lean. -/
structure Cfg where
  /-- `TAG_BIOC_EVENT`: tag of a button-event packet. -/
  tagBiocEvent : Byte
  /-- `TAG_RESET`: tag of a reset packet. -/
  tagReset : Byte
  /-- `TAG_ACK`: tag of an acknowledgment packet. -/
  tagAck : Byte
  /-- `CMD_BIOC_ON`: outbound command "enable button-event reporting". -/
  cmdBiocOn : Byte
  /-- `CMD_LED_USR`: outbound command "select user-driven LED mode". -/
  cmdLedUsr : Byte
  /-- `CMD_LED_SET`: header byte of the outbound "set display" command. -/
  cmdLedSet : Byte
  /-- `DP_BIT`: the decimal-point segment bit. -/
  dpBit : Byte
  /-- `SEG[0..15]`: seven-segment pattern of each hex digit value (R114). -/
  seg : Vector Byte 16
deriving DecidableEq, Repr

/-- The constraints of R9: the tags are pairwise distinct, `DP_BIT` has exactly one bit set, and no segment pattern
has that bit. Nothing else may be assumed (R114). -/
abbrev Cfg.Valid (c : Cfg) : Prop :=
  (c.tagBiocEvent ≠ c.tagReset ∧ c.tagBiocEvent ≠ c.tagAck ∧ c.tagReset ≠ c.tagAck) ∧
  (∃ k : Fin 8, c.dpBit = 1#8 <<< k.val) ∧
  (∀ n : Fin 16, c.seg[n.val] &&& c.dpBit = 0#8)

/-- `CFG_REF` (D12). PRESUMED: illustrative values, from general knowledge and not in the source, safe to run with and
unsafe to take for the peripheral's (log 2). No operation of the model reads it: they read the state's `cfg`. -/
def cfgRef : Cfg where
  tagAck := 0x40
  tagBiocEvent := 0x41
  tagReset := 0x42
  cmdBiocOn := 0xC3
  cmdLedSet := 0xC6
  cmdLedUsr := 0xC7
  dpBit := 0x10
  seg := #v[0xE7, 0x06, 0xCB, 0x8F, 0x2E, 0xAD, 0xED, 0x86, 0xEF, 0xAE, 0xEE, 0x6D, 0xE1, 0x4F, 0xE9, 0xE8]

/-- FREE VALUE (93 U1, R29, R198): what the draw numbered `n` leaves in `LAST` at a hardware reset. Nothing
constrains it; a claim about it holds for every value. Safe (log 1). -/
opaque Config.resetLast : Nat → DisplayRequest

/-- FREE VALUE (93 U2, R48, R166): whether the draw numbered `n` takes the packet before the command when both are
offered at the same instant. Nothing constrains it; a claim must hold for both orders. Safe (log 4). -/
opaque Config.packetFirst : Nat → Bool

end Sys2Proof
end

