-- ==== Sys2Proof/Syntax.lean ====
section
/-! DEFINITION. What is offered to the block and the operations of spec/opcode_table.json: the inbound packet (30 R61),
the host command record (30 R66), and `Instr`, one constructor per row of the table. -/
namespace Sys2Proof

/-- Format `PKT3` (R61): exactly three bytes, in the order the transport delivered them (R42, R43). A packet of another
length has no value of this type (93 X1). -/
structure Packet where
  b0 : Byte
  b1 : Byte
  b2 : Byte
deriving DecidableEq, Repr

/-- Format `HOSTCMD` (R66): a field the selected operation does not use is ignored. -/
structure HostCmd where
  op : Byte
  d0 : Byte
  d1 : Byte
  d2 : Byte
  d3 : Byte
  en : Byte
  dp : Byte
  dstOk : Bool
deriving DecidableEq, Repr

/-- The operations of the opcode table, one constructor per row (R73: 4 packets, 4 host commands, 4 outbound
patterns). `RST` has no row; it is an event (R190). -/
inductive Instr where
  /-- `PKT.BIOC b1, b2` (R92). -/
  | pktBioc (b1 b2 : Byte)
  /-- `PKT.RESET` (R94); its payload bytes are ignored (R64). -/
  | pktReset
  /-- `PKT.ACK` (R95); its payload bytes are ignored (R64). -/
  | pktAck
  /-- `PKT.UNK t, b1, b2` (R96). -/
  | pktUnk (t b1 b2 : Byte)
  /-- `INIT` (R131). -/
  | init
  /-- `SETD d0, d1, d2, d3, en, dp` (R140), the operands as the caller gives them. -/
  | setd (d0 d1 d2 d3 en dp : Byte)
  /-- `RDB ok` or `RDB bad` (R150). -/
  | rdb (dstOk : Bool)
  /-- `BADCMD op` (R152). -/
  | badcmd (op : Byte)
  /-- `BIOC_ON` (R132). -/
  | biocOn
  /-- `LED_USR` (R133). -/
  | ledUsr
  /-- `LED_SET`, 3-digit form (R71, R113), by its pattern bytes (log 7). -/
  | ledSet3 (p0 p1 p2 : Byte)
  /-- `LED_SET`, 4-digit form (R71, R113), by its pattern bytes (log 7). -/
  | ledSet4 (p0 p1 p2 p3 : Byte)
deriving DecidableEq, Repr

end Sys2Proof
end

