-- ==== Sys2Proof/WellFormed.lean ====
section
/-! DEFINITION. Which terms of `Instr` stand for an encoding of the spec, for a given configuration. -/
namespace Sys2Proof

/-- Whether `t` is one of the three named tags (R62). -/
def Cfg.namedTag (c : Cfg) (t : Byte) : Bool :=
  t == c.tagBiocEvent || t == c.tagReset || t == c.tagAck

/-- Whether `op` is one of the three supported host operations (R67). -/
def supportedOp (op : Byte) : Bool :=
  op == 0x00#8 || op == 0x01#8 || op == 0x02#8

/-- `PKT.UNK` carries a tag outside the three named ones (R62, R96) and `BADCMD` an `op` outside the three supported
ones (R67, R152); every other term is well formed, since no operand is range-checked (R69, R110). -/
def Instr.wellFormed (c : Cfg) : Instr → Bool
  | .pktBioc _ _ => true
  | .pktReset => true
  | .pktAck => true
  | .pktUnk t _ _ => !c.namedTag t
  | .init => true
  | .setd _ _ _ _ _ _ => true
  | .rdb _ => true
  | .badcmd op => !supportedOp op
  | .biocOn => true
  | .ledUsr => true
  | .ledSet3 _ _ _ => true
  | .ledSet4 _ _ _ _ => true

end Sys2Proof
end

