-- ==== Sys2Proof/Decode.lean ====
section
/-! DEFINITION. The decoder (30 R61 to R67, R70, R71, 40 R90), total on any bytes of any channel and rejecting by name;
the encoder, written from the same formats; and the numbering of words by spec/opcode_table.json. -/
namespace Sys2Proof

/-- `SELECT_3`, the digit-select byte of the 3-digit form (R8). -/
def selectThree : Byte := 0x07

/-- `SELECT_ALL`, the digit-select byte of the 4-digit form: 0x0F by the spec's decision D10 (R71, log 19). -/
def selectAll : Byte := 0x0F

/-- The three address-less channels (R40): which side the bytes travel on tells the formats apart. -/
inductive Channel where
  | inbound
  | host
  | outbound
deriving DecidableEq, Repr

/-- Why bytes are no encoding of the spec. -/
inductive Reject where
  /-- A packet that is not exactly 3 bytes (R43, 93 X1). -/
  | packetLength
  /-- A host command record that is not the 8 bytes of the model's layout (log 8). -/
  | commandLength
  /-- A last byte of a host command record that is no 1-bit `dst_ok` (R66, log 8). -/
  | dstOkNotABit
  /-- An outbound byte list that is neither 1, 5 nor 6 bytes long (R44). -/
  | outboundLength
  /-- An outbound command byte that is none of the three (R65, R70, R71). -/
  | outboundCommand
  /-- An outbound set-display command whose select byte does not go with its length (R71). -/
  | outboundSelect
deriving DecidableEq, Repr

/-- Tag decode (R62, R90): all 8 bits of `b0` and nothing else select the operation. -/
def decodePacket (c : Cfg) (p : Packet) : Instr :=
  if p.b0 = c.tagBiocEvent then .pktBioc p.b1 p.b2
  else if p.b0 = c.tagReset then .pktReset
  else if p.b0 = c.tagAck then .pktAck
  else .pktUnk p.b0 p.b1 p.b2

/-- Host opcode map (R67): `op` alone selects the operation. -/
def decodeCommand (h : HostCmd) : Instr :=
  if h.op = 0x00#8 then .init
  else if h.op = 0x01#8 then .setd h.d0 h.d1 h.d2 h.d3 h.en h.dp
  else if h.op = 0x02#8 then .rdb h.dstOk
  else .badcmd h.op

/-- The bytes of a host command record in the order of R66's table, `dst_ok` last. DESIGN CHOICE, safe: the spec gives
no packing of the record (91 N6, log 8). -/
def HostCmd.bytes (h : HostCmd) : List Byte :=
  [h.op, h.d0, h.d1, h.d2, h.d3, h.en, h.dp, if h.dstOk then 1#8 else 0#8]

/-- The record that eight bytes stand for, in the layout of `HostCmd.bytes`. -/
def HostCmd.ofBytes : List Byte → Except Reject HostCmd
  | [op, d0, d1, d2, d3, en, dp, k] =>
    if k = 0#8 then .ok ⟨op, d0, d1, d2, d3, en, dp, false⟩
    else if k = 1#8 then .ok ⟨op, d0, d1, d2, d3, en, dp, true⟩
    else .error .dstOkNotABit
  | _ => .error .commandLength

/-- Formats `OUT1` and `OUTSET` (R70, R71): the header byte, and for "set display" the select byte, which tells the
length. Where `CMD_BIOC_ON = CMD_LED_USR`, which R9 does not exclude, the byte reads as `BIOC_ON` (log 15). -/
def decodeOutbound (c : Cfg) : List Byte → Except Reject Instr
  | [h] =>
    if h = c.cmdBiocOn then .ok .biocOn
    else if h = c.cmdLedUsr then .ok .ledUsr
    else .error .outboundCommand
  | [h, sel, p0, p1, p2] =>
    if h = c.cmdLedSet then
      if sel = selectThree then .ok (.ledSet3 p0 p1 p2) else .error .outboundSelect
    else .error .outboundCommand
  | [h, sel, p0, p1, p2, p3] =>
    if h = c.cmdLedSet then
      if sel = selectAll then .ok (.ledSet4 p0 p1 p2 p3) else .error .outboundSelect
    else .error .outboundCommand
  | _ => .error .outboundLength

/-- The decoder, total on any bytes of any channel. -/
def decode (c : Cfg) : Channel → List Byte → Except Reject Instr
  | .inbound, [b0, b1, b2] => .ok (decodePacket c ⟨b0, b1, b2⟩)
  | .inbound, _ => .error .packetLength
  | .host, l =>
    match HostCmd.ofBytes l with
    | .ok h => .ok (decodeCommand h)
    | .error e => .error e
  | .outbound, l => decodeOutbound c l

/-- The channel an operation travels on (R60). -/
def Instr.channel : Instr → Channel
  | .pktBioc _ _ => .inbound
  | .pktReset => .inbound
  | .pktAck => .inbound
  | .pktUnk _ _ _ => .inbound
  | .init => .host
  | .setd _ _ _ _ _ _ => .host
  | .rdb _ => .host
  | .badcmd _ => .host
  | .biocOn => .outbound
  | .ledUsr => .outbound
  | .ledSet3 _ _ _ => .outbound
  | .ledSet4 _ _ _ _ => .outbound

/-- The bytes of the two forms of format `OUTSET` (R71). -/
def ledSet3Bytes (c : Cfg) (p0 p1 p2 : Byte) : List Byte := [c.cmdLedSet, selectThree, p0, p1, p2]

/-- See `ledSet3Bytes`. -/
def ledSet4Bytes (c : Cfg) (p0 p1 p2 p3 : Byte) : List Byte := [c.cmdLedSet, selectAll, p0, p1, p2, p3]

/-- The encoder: the bytes of an operation on its channel, written from R61, R66, R67, R70 and R71. A bit the block
ignores is written as 0. -/
def encode (c : Cfg) : Instr → List Byte
  | .pktBioc b1 b2 => [c.tagBiocEvent, b1, b2]
  | .pktReset => [c.tagReset, 0#8, 0#8]
  | .pktAck => [c.tagAck, 0#8, 0#8]
  | .pktUnk t b1 b2 => [t, b1, b2]
  | .init => HostCmd.bytes ⟨0x00, 0, 0, 0, 0, 0, 0, false⟩
  | .setd d0 d1 d2 d3 en dp => HostCmd.bytes ⟨0x01, d0, d1, d2, d3, en, dp, false⟩
  | .rdb dstOk => HostCmd.bytes ⟨0x02, 0, 0, 0, 0, 0, 0, dstOk⟩
  | .badcmd op => HostCmd.bytes ⟨op, 0, 0, 0, 0, 0, 0, false⟩
  | .biocOn => [c.cmdBiocOn]
  | .ledUsr => [c.cmdLedUsr]
  | .ledSet3 p0 p1 p2 => ledSet3Bytes c p0 p1 p2
  | .ledSet4 p0 p1 p2 p3 => ledSet4Bytes c p0 p1 p2 p3

/-- The first `n` bytes of the number `w`, the least significant first. -/
def littleBytes : Nat → Nat → List Byte
  | 0, _ => []
  | n + 1, w => BitVec.ofNat 8 w :: littleBytes n (w / 256)

/-- The bytes, and their channel, that a word numbered as spec/opcode_table.json numbers it stands for (log 8). A packet
is the table's one 24-bit word with `b0` in bits 23..16 (R61). The other formats are byte strings, the first byte in bits
7..0; what the word leaves out is zero bytes. The table gives formats `HOSTCMD` and `OUT1` the same 8 bits: such a
byte is the outbound command where it is one of the two command bytes, else a host `op`. -/
def tableBytes (c : Cfg) (nbits w : Nat) : Channel × List Byte :=
  if nbits = 24 then (.inbound, [BitVec.ofNat 8 (w / 65536), BitVec.ofNat 8 (w / 256), BitVec.ofNat 8 w])
  else if nbits = 8 then
    if BitVec.ofNat 8 w = c.cmdBiocOn ∨ BitVec.ofNat 8 w = c.cmdLedUsr then (.outbound, littleBytes 1 w)
    else (.host, littleBytes 8 (w % 256))
  else if nbits = 16 then
    if BitVec.ofNat 8 (w / 256) = selectThree then (.outbound, littleBytes 5 (w % 65536))
    else (.outbound, littleBytes 6 (w % 65536))
  else if nbits = 56 then (.host, littleBytes 7 w ++ [0#8])
  else if nbits = 64 then (.host, littleBytes 8 w)
  else (.outbound, littleBytes (nbits / 8) w)

/-- The instruction the decoder reads from a word of the opcode table, under the configuration the table prints its
words for (`match_cfg_ref`); none where it rejects. -/
def decodeTableWord (nbits w : Nat) : Option Instr :=
  match decode cfgRef (tableBytes cfgRef nbits w).1 (tableBytes cfgRef nbits w).2 with
  | .ok i => some i
  | .error _ => none

end Sys2Proof
end

