-- ==== Sys2Proof/Machine/State.lean ====
section
/-! DEFINITION. The state: the whole architectural state of 10_state.md (BTN, LAST, INFLIGHT and the log OUT), the
configuration, the environment's offers and the responses given; the reasons a step stops; the state after reset. -/
namespace Sys2Proof.Machine

/-- `status` of a response (30 R68); the codes are `Status.code`. -/
inductive Status where
  | ok
  | busy
  | invalid
deriving DecidableEq, Repr

/-- `RSP(status, data)` (R68). -/
structure Response where
  status : Status
  data : Byte
deriving DecidableEq, Repr

/-- The three kinds of event (00_scope R6). -/
inductive Event where
  /-- `RST`, the hardware reset (R190). -/
  | rst
  /-- An inbound packet, delivered by the receive agent. -/
  | packet (p : Packet)
  /-- A host command, issued by the request agent. -/
  | command (h : HostCmd)
deriving DecidableEq, Repr

/-- What the environment offers at one instant: one event, or one of each agent's (R48, R166). -/
inductive Offer where
  | one (e : Event)
  | both (p : Packet) (h : HostCmd)
deriving DecidableEq, Repr

/-- Nothing faults: "Every event is defined in every state: the step function is total" (60 R170, 93 section 3). -/
inductive Fault
deriving DecidableEq, Repr

/-- The reasons a step is refused: each stands for a case in which the spec gives the block no move. -/
inductive Refusal where
  /-- Raised by `exec` for an instruction without a meaning; no arm does so. Safe. -/
  | notModelled (mnemonic : String)
  /-- Raised by `step`: the configuration breaks the constraints of R9, an environment duty "for whose violation the
  model has no move" (R175(4), 93 X8). Safe (log 9). -/
  | configOutsideContract
  /-- Raised by `step`: the bytes on the model's own drive port are no outbound command (R65). No event of the spec
  puts bytes there. Safe (log 6). -/
  | driveNotACommand
deriving DecidableEq, Repr

/-- The state. `btn`, `last`, `inflight`, `out` are the spec's architectural state (R20). `cfg` is the run's parameter
(R32). `inbox` and `responses` are the block's inputs and answers (R174). `draws` and `drive` are the model's own. -/
structure State where
  /-- `BTN`, the Button State Holder (R21). -/
  btn : Byte
  /-- `LAST`, the last admitted display request (R24). -/
  last : DisplayRequest
  /-- `INFLIGHT`, the in-flight flag (R26). -/
  inflight : Bool
  /-- `OUT`, the outbound log: every send request since reset, oldest first (R28). -/
  out : List (List Byte)
  /-- `Cfg`, which no event changes (R32). -/
  cfg : Cfg
  /-- What the environment offers and the block has not yet taken, oldest first (log 3). -/
  inbox : List Offer
  /-- The responses since reset, oldest first (R174(a), log 5). -/
  responses : List Response
  /-- MODEL'S OWN: how many free values have been drawn (log 4). -/
  draws : Nat
  /-- MODEL'S OWN: an outbound command to issue by itself; no event of the spec sets it (log 6). -/
  drive : Option (List Byte)
deriving DecidableEq, Repr

/-- The machine right after `RST` (R29, R190): `BTN`, `INFLIGHT` and `OUT` as the spec gives them; `LAST` an unspecified
draw (log 1); the configuration the illustrative `CFG_REF` (log 2). -/
def State.reset : State where
  btn := 0x00
  last := Config.resetLast 0
  inflight := false
  out := []
  cfg := cfgRef
  inbox := []
  responses := []
  draws := 1
  drive := none

end Sys2Proof.Machine
end

