-- ==== Sys2Proof/Machine/Operands.lean ====
section
/-! DEFINITION. The pure functions over operands: operand reduction (30 R69), `Compose` (40 R91), the pattern byte
(30 R72), `Encode` (41 R111), `CopyOut` (00_scope R13) and the response codes (30 R68). -/
namespace Sys2Proof.Machine

/-- `ACTION_MASK` (R8). -/
def actionMask : Byte := 0x0F
/-- `CLUSTER_MASK` (R8). -/
def clusterMask : Byte := 0x09
/-- `CLUSTER_SHIFT` (R8). -/
def clusterShift : Nat := 4
/-- `LEFT_SRC` (R8). -/
def leftSrc : Nat := 1
/-- `LEFT_POS` (R8), as the document prints it (90 C1, log 12). -/
def leftPos : Nat := 5
/-- `DOWN_SRC` (R8). -/
def downSrc : Nat := 2
/-- `DOWN_POS` (R8), as the document prints it (90 C1, log 12). -/
def downPos : Nat := 3
/-- `EN_SPECIAL`, the one enable mask that selects the 3-digit form (R8). -/
def enSpecial : Nibble := 0b0111

/-- `Compose(b1, b2)` (R91), with bitwise OR: the high nibbles do not reach it, "down" shares bit 3 with an action
button, bit 6 is never set. -/
def compose (b1 b2 : Byte) : Byte :=
  (b1 &&& actionMask)
    ||| ((b2 &&& (1#8 <<< leftSrc)) <<< (leftPos - leftSrc))
    ||| ((b2 &&& (1#8 <<< downSrc)) <<< (downPos - downSrc))
    ||| ((b2 &&& clusterMask) <<< clusterShift)

/-- The low nibble of an operand: `v mod 16 = v & 0x0F = v[3:0]` (R12, R69). -/
def lowNibble (v : Byte) : Nibble := v.setWidth 4

/-- Operand reduction for `SETD` (R69): every upper bit is discarded, nothing is range-checked. -/
def reduceRequest (d0 d1 d2 d3 en dp : Byte) : DisplayRequest where
  d0 := lowNibble d0
  d1 := lowNibble d1
  d2 := lowNibble d2
  d3 := lowNibble d3
  en := lowNibble en
  dp := lowNibble dp

/-- The pattern byte of a digit value with or without its decimal point (R72). -/
def pattern (c : Cfg) (digit : Nibble) (point : Bool) : Byte :=
  c.seg[digit.toNat] ||| (if point then c.dpBit else 0x00#8)

/-- `P(0)`: digit position 0 with bit 0 of the decimal mask (R111). -/
def pattern0 (c : Cfg) (r : DisplayRequest) : Byte := pattern c r.d0 (r.dp.getLsbD 0)
/-- `P(1)` (R111). -/
def pattern1 (c : Cfg) (r : DisplayRequest) : Byte := pattern c r.d1 (r.dp.getLsbD 1)
/-- `P(2)` (R111). -/
def pattern2 (c : Cfg) (r : DisplayRequest) : Byte := pattern c r.d2 (r.dp.getLsbD 2)
/-- `P(3)` (R111). -/
def pattern3 (c : Cfg) (r : DisplayRequest) : Byte := pattern c r.d3 (r.dp.getLsbD 3)

/-- `Encode(req)` (R111): the 3-digit form exactly when `EN = 0b0111`, else the 4-digit form with all four positions,
whatever the enable mask says (R112(a)). -/
def encodeRequest (c : Cfg) (r : DisplayRequest) : List Byte :=
  if r.en = enSpecial then ledSet3Bytes c (pattern0 c r) (pattern1 c r) (pattern2 c r)
  else ledSet4Bytes c (pattern0 c r) (pattern1 c r) (pattern2 c r) (pattern3 c r)

/-- `LED_SET(req)` as an operation of the table (R73, R113): which of the two rows, with which pattern bytes. -/
def ledSetOf (c : Cfg) (r : DisplayRequest) : Instr :=
  if r.en = enSpecial then .ledSet3 (pattern0 c r) (pattern1 c r) (pattern2 c r)
  else .ledSet4 (pattern0 c r) (pattern1 c r) (pattern2 c r) (pattern3 c r)

/-- `CopyOut(dst_ok, v)` (R13): what the caller's destination receives, if the copy succeeds. -/
def copyOut (dstOk : Bool) (v : Byte) : Option Byte := if dstOk then some v else none

/-- The numeric code of a status (R68); 3 is never produced. -/
def Status.code : Status → BitVec 2
  | .ok => 0
  | .busy => 1
  | .invalid => 2

/-- The two error results, the complete taxonomy (60 R160). -/
inductive CoreError where
  /-- "device busy" (R161). -/
  | busy
  /-- "invalid argument" (R162). -/
  | invalidArgument
deriving DecidableEq, Repr

/-- The status an error answers with (R161, R162). -/
def CoreError.status : CoreError → Status
  | .busy => .busy
  | .invalidArgument => .invalid

end Sys2Proof.Machine
end

