-- ==== Sys2Proof/Machine/Ops.lean ====
section
/-! DEFINITION. The named operations over the state, the pseudocode primitives of 00_scope R13: register writes, `Send`,
`respond`, `raise`, `PeriphInit`, the hardware reset and the model's own draws. -/
namespace Sys2Proof.Machine

/-- `BTN <- v`. -/
def State.setBtn (v : Byte) (s : State) : State := { s with btn := v }

/-- `LAST <- r`, the whole of it (R25). -/
def State.setLast (r : DisplayRequest) (s : State) : State := { s with last := r }

/-- `INFLIGHT <- b`. -/
def State.setInflight (b : Bool) (s : State) : State := { s with inflight := b }

/-- `Send(L)` (R13, R46): the append of one send request to `OUT`, and nothing more. -/
def State.send (l : List Byte) (s : State) : State := { s with out := s.out ++ [l] }

/-- `respond(status, data)` (R13): the response of a host command step. -/
def State.respond (status : Status) (data : Byte) (s : State) : State :=
  { s with responses := s.responses ++ [⟨status, data⟩] }

/-- What the environment still offers (log 3). -/
def State.setInbox (l : List Offer) (s : State) : State := { s with inbox := l }

/-- The model's own drive port (log 6). -/
def State.setDrive (d : Option (List Byte)) (s : State) : State := { s with drive := d }

/-- One more free value drawn (log 4). -/
def State.countDraw (s : State) : State := { s with draws := s.draws + 1 }

/-- `raise Busy` and `raise InvalidArgument` (R13, R160 to R164), the block's only "exception": a response with the
error's status and data 0, no other change, no transfer of control and so nothing to return from. -/
def raiseError (e : CoreError) (s : State) : State := s.respond e.status 0x00

/-- The emission of `BIOC_ON` (R132). -/
def sendBiocOn (s : State) : State := s.send [s.cfg.cmdBiocOn]

/-- The emission of `LED_USR` (R133). -/
def sendLedUsr (s : State) : State := s.send [s.cfg.cmdLedUsr]

/-- The emission of `LED_SET(req)` (R113), as one send request. -/
def sendLedSet (r : DisplayRequest) (s : State) : State := s.send (encodeRequest s.cfg r)

/-- `PeriphInit()` (R130): two send requests in this order; it writes no register (90 C3, log 13). -/
def periphInit (s : State) : State := sendLedUsr (sendBiocOn s)

/-- The hardware reset event `RST` (R190): it sends nothing, draws an unspecified `LAST` (log 1) and leaves the
configuration and the environment's offers alone. The responses of the run before it are dropped with `OUT` (log 5). -/
def hardReset (s : State) : State :=
  { s with btn := 0x00, inflight := false, out := [], last := Config.resetLast s.draws, responses := [],
           draws := s.draws + 1 }

end Sys2Proof.Machine
end

