-- ==== Sys2Proof/Machine/Flags.lean ====
section
/-! DEFINITION. The one status flag, `INFLIGHT` (10_state R26, R27): the admission test and the flag's two
transitions. -/
namespace Sys2Proof.Machine

/-- The admission test of the Flow-Control Gate (R140): closed while a set-display is in flight. -/
def gateClosed (s : State) : Bool := s.inflight

/-- 0 to 1, only when a set-display is admitted (R27). -/
def closeGate (s : State) : State := s.setInflight true

/-- 1 to 0, on an acknowledgment packet or a reset packet (R27); leaves 0 at 0. -/
def openGate (s : State) : State := s.setInflight false

end Sys2Proof.Machine
end

