-- ==== Sys2Proof/Machine/HostFamily.lean ====
section
/-! DEFINITION. The meanings of the host commands (42, 43 and 44): each answers in the same step. -/
namespace Sys2Proof.Machine

/-- `INIT` (R131): sends the two initialisation bytes and always succeeds; it writes no register. -/
def execInit (s : State) : Host.Outcome State Fault Refusal :=
  .next ((periphInit s).respond .ok 0x00)

/-- `SETD` (R140): Busy and nothing else while the gate is closed; admitted otherwise, with the reduced request stored,
encoded and sent. -/
def execSetd (d0 d1 d2 d3 en dp : Byte) (s : State) : Host.Outcome State Fault Refusal :=
  if gateClosed s then .next (raiseError .busy s)
  else
    let req := reduceRequest d0 d1 d2 d3 en dp
    .next ((sendLedSet req ((closeGate s).setLast req)).respond .ok 0x00)

/-- `RDB` (R150): reads and clears `BTN` in one step, or raises InvalidArgument and clears nothing. -/
def execRdb (dstOk : Bool) (s : State) : Host.Outcome State Fault Refusal :=
  match copyOut dstOk s.btn with
  | none => .next (raiseError .invalidArgument s)
  | some v => .next ((s.setBtn 0x00).respond .ok v)

/-- `BADCMD` (R152): InvalidArgument, always. -/
def execBadcmd (_op : Byte) (s : State) : Host.Outcome State Fault Refusal :=
  .next (raiseError .invalidArgument s)

end Sys2Proof.Machine
end

