-- ==== Sys2Proof/Machine/OutboundFamily.lean ====
section
/-! DEFINITION. The meanings of the outbound commands (41 R113, 42 R132, R133): what the block does is the send request;
their effect on the peripheral is outside the block (00_scope R4(e)). -/
namespace Sys2Proof.Machine

/-- `BIOC_ON` (R132). -/
def execBiocOn (s : State) : Host.Outcome State Fault Refusal := .next (sendBiocOn s)

/-- `LED_USR` (R133). -/
def execLedUsr (s : State) : Host.Outcome State Fault Refusal := .next (sendLedUsr s)

/-- `LED_SET`, 3-digit form, by its pattern bytes (R71, R113, log 7). -/
def execLedSet3 (p0 p1 p2 : Byte) (s : State) : Host.Outcome State Fault Refusal :=
  .next (s.send (ledSet3Bytes s.cfg p0 p1 p2))

/-- `LED_SET`, 4-digit form, by its pattern bytes (R71, R113, log 7). -/
def execLedSet4 (p0 p1 p2 p3 : Byte) (s : State) : Host.Outcome State Fault Refusal :=
  .next (s.send (ledSet4Bytes s.cfg p0 p1 p2 p3))

end Sys2Proof.Machine
end

