-- ==== Sys2Proof/Machine/PacketFamily.lean ====
section
/-! DEFINITION. The meanings of the inbound packets (40_packet_decoder.md). No packet step answers anybody. -/
namespace Sys2Proof.Machine

/-- `PKT.BIOC` (R92): overwrites `BTN` unconditionally, with no merge. -/
def execPktBioc (b1 b2 : Byte) (s : State) : Host.Outcome State Fault Refusal :=
  .next (s.setBtn (compose b1 b2))

/-- `PKT.RESET` (R94): re-initialises the peripheral, replays `LAST` past the gate, and opens the gate (90 C4,
log 14). -/
def execPktReset (s : State) : Host.Outcome State Fault Refusal :=
  .next (openGate (sendLedSet s.last (periphInit s)))

/-- `PKT.ACK` (R95): opens the gate, whatever the flag was and whichever command it answers. -/
def execPktAck (s : State) : Host.Outcome State Fault Refusal :=
  .next (openGate s)

/-- `PKT.UNK` (R96): consumed and ignored. -/
def execPktUnk (_t _b1 _b2 : Byte) (s : State) : Host.Outcome State Fault Refusal :=
  .next s

end Sys2Proof.Machine
end

