-- ==== Sys2Proof/Machine/Dispatch.lean ====
section
/-! DEFINITION. One arm per constructor of Instr, each one call of its meaning. -/
namespace Sys2Proof.Machine

def exec (i : Instr) (s : State) : Host.Outcome State Fault Refusal :=
  match i with
  | .pktBioc b1 b2 => Sys2Proof.Machine.execPktBioc b1 b2 s
  | .pktReset => Sys2Proof.Machine.execPktReset s
  | .pktAck => Sys2Proof.Machine.execPktAck s
  | .pktUnk t b1 b2 => Sys2Proof.Machine.execPktUnk t b1 b2 s
  | .init => Sys2Proof.Machine.execInit s
  | .setd d0 d1 d2 d3 en dp => Sys2Proof.Machine.execSetd d0 d1 d2 d3 en dp s
  | .rdb dstOk => Sys2Proof.Machine.execRdb dstOk s
  | .badcmd op => Sys2Proof.Machine.execBadcmd op s
  | .biocOn => Sys2Proof.Machine.execBiocOn s
  | .ledUsr => Sys2Proof.Machine.execLedUsr s
  | .ledSet3 p0 p1 p2 => Sys2Proof.Machine.execLedSet3 p0 p1 p2 s
  | .ledSet4 p0 p1 p2 p3 => Sys2Proof.Machine.execLedSet4 p0 p1 p2 p3 s

end Sys2Proof.Machine
end

