-- ==== Sys2Proof/Machine/Fetch.lean ====
section
/-! DEFINITION. What the block takes next: the oldest offer of the environment (20_memory R47, R48), with a packet and a
command of the same instant taken in an order nothing fixes (60 R166), and the placing of a word where it is taken
next. -/
namespace Sys2Proof.Machine

/-- What the next step has to do, with the state the choice leaves. -/
inductive Fetched where
  /-- Nothing is offered. -/
  | idle
  /-- The hardware reset event. -/
  | reset (s : State)
  /-- An operation to run. -/
  | run (i : Instr) (s : State)
  /-- Bytes on the drive port that are no outbound command. -/
  | badDrive
deriving DecidableEq, Repr

/-- The operation of an event under a configuration; none for `RST`, which has no encoding (R73). -/
def eventInstr (c : Cfg) : Event → Option Instr
  | .rst => none
  | .packet p => some (decodePacket c p)
  | .command h => some (decodeCommand h)

/-- The next event of the environment with the state once it is taken: offers in their order; of two events of the
same instant one is taken by a free value and the other stays offered (log 4). -/
def takeEvent (s : State) : Option (Event × State) :=
  match s.inbox with
  | [] => none
  | .one e :: rest => some (e, s.setInbox rest)
  | .both p h :: rest =>
    if Config.packetFirst s.draws then
      some (.packet p, (s.setInbox (.one (.command h) :: rest)).countDraw)
    else some (.command h, (s.setInbox (.one (.packet p) :: rest)).countDraw)

/-- The drive port first (the model's own, log 6), then the environment's offers. -/
def fetch (s : State) : Fetched :=
  match s.drive with
  | some l =>
    match decode s.cfg .outbound l with
    | .ok i => .run i (s.setDrive none)
    | .error _ => .badDrive
  | none =>
    match takeEvent s with
    | none => .idle
    | some (e, s') =>
      match eventInstr s'.cfg e with
      | none => .reset s'
      | some i => .run i s'

/-- `s` with these bytes where the next step takes its operation: a packet or a command in front of the environment's
offers, anything else on the drive port. -/
def placeBytes (ch : Channel) (l : List Byte) (s : State) : State :=
  match ch, l with
  | .inbound, [b0, b1, b2] => (s.setInbox (.one (.packet ⟨b0, b1, b2⟩) :: s.inbox)).setDrive none
  | .inbound, l => s.setDrive (some l)
  | .host, l =>
    match HostCmd.ofBytes l with
    | .ok h => (s.setInbox (.one (.command h) :: s.inbox)).setDrive none
    | .error _ => s.setDrive (some l)
  | .outbound, l => s.setDrive (some l)

end Sys2Proof.Machine
end

