-- ==== Sys2Proof/Machine/Step.lean ====
section
/-! DEFINITION. One step: one event taken and handled to completion (00_scope R6, 20_memory R48). -/
namespace Sys2Proof.Machine

/-- The handling of one event (R6): `RST`, or the operation the packet or command decodes to. -/
def handle (e : Event) (s : State) : Host.Outcome State Fault Refusal :=
  match eventInstr s.cfg e with
  | none => .next (hardReset s)
  | some i => exec i s

/-- One step: refused where the configuration breaks its constraints (log 9); idle with the state unchanged where
nothing is offered (R31, log 10); else one event, taken and handled. -/
def step (s : State) : Host.Outcome State Fault Refusal :=
  if s.cfg.Valid then
    match fetch s with
    | .idle => .next s
    | .reset s' => .next (hardReset s')
    | .run i s' => exec i s'
    | .badDrive => .refused .driveNotACommand
  else .refused .configOutsideContract

/-- `s` with a word of the opcode table placed where `step` takes its next operation (logs 3, 6, 8). -/
def State.withFetchWord (s : State) (nbits w : Nat) : State :=
  placeBytes (tableBytes s.cfg nbits w).1 (tableBytes s.cfg nbits w).2 s

end Sys2Proof.Machine
end

