-- ==== Sys2Proof/Safety.lean ====
section
/-! DEFINITION. The terms claims use: runs of events (60 R174), what an event does to the gate and the registers by its
kind, the forms of send requests and responses, and the invariant of the machine. -/
namespace Sys2Proof.Machine

/-- The request a `SETD` command record carries, its operands reduced (R69). -/
def requestOf (h : HostCmd) : DisplayRequest := reduceRequest h.d0 h.d1 h.d2 h.d3 h.en h.dp

/-- A sequence of events handled one after the other, each to completion (R47, R174). -/
def handleAll : List Event → State → Host.Outcome State Fault Refusal
  | [], s => .next s
  | e :: es, s =>
    match handle e s with
    | .next s' => handleAll es s'
    | .fault r => .fault r
    | .refused r => .refused r

/-- A run of the block (R174): `RST` followed by events that the environment chooses. -/
def runFromReset (es : List Event) (s : State) : Host.Outcome State Fault Refusal := handleAll es (hardReset s)

/-- What the outside can observe of a run (R174): the responses in order and the outbound log. -/
def observed (s : State) : List Response × List (List Byte) := (s.responses, s.out)

/-- The inbox of an environment that offers these events in this order. -/
def offersOf (es : List Event) : List Offer := es.map Offer.one

/-- The packet rows of the table. -/
def isPacket : Instr → Bool
  | .pktBioc _ _ => true
  | .pktReset => true
  | .pktAck => true
  | .pktUnk _ _ _ => true
  | .init => false
  | .setd _ _ _ _ _ _ => false
  | .rdb _ => false
  | .badcmd _ => false
  | .biocOn => false
  | .ledUsr => false
  | .ledSet3 _ _ _ => false
  | .ledSet4 _ _ _ _ => false

/-- The operations that clear `INFLIGHT` (R27). -/
def opensGate : Instr → Bool
  | .pktBioc _ _ => false
  | .pktReset => true
  | .pktAck => true
  | .pktUnk _ _ _ => false
  | .init => false
  | .setd _ _ _ _ _ _ => false
  | .rdb _ => false
  | .badcmd _ => false
  | .biocOn => false
  | .ledUsr => false
  | .ledSet3 _ _ _ => false
  | .ledSet4 _ _ _ _ => false

/-- Whether an event can leave the gate open where it was closed: an acknowledgment packet, a reset packet, or `RST`. -/
def eventOpensGate (c : Cfg) (e : Event) : Bool :=
  match eventInstr c e with
  | none => true
  | some i => opensGate i

/-- The set-display operation, admitted or not. -/
def isSetd : Instr → Bool
  | .pktBioc _ _ => false
  | .pktReset => false
  | .pktAck => false
  | .pktUnk _ _ _ => false
  | .init => false
  | .setd _ _ _ _ _ _ => true
  | .rdb _ => false
  | .badcmd _ => false
  | .biocOn => false
  | .ledUsr => false
  | .ledSet3 _ _ _ => false
  | .ledSet4 _ _ _ _ => false

/-- The operations that write `BTN` (R21): the button-event packet and a read with a good destination. -/
def writesBtn : Instr → Bool
  | .pktBioc _ _ => true
  | .pktReset => false
  | .pktAck => false
  | .pktUnk _ _ _ => false
  | .init => false
  | .setd _ _ _ _ _ _ => false
  | .rdb dstOk => dstOk
  | .badcmd _ => false
  | .biocOn => false
  | .ledUsr => false
  | .ledSet3 _ _ _ => false
  | .ledSet4 _ _ _ _ => false

/-- Whether an event is a `SETD` command. -/
def eventIsSetd (c : Cfg) (e : Event) : Bool :=
  match eventInstr c e with
  | none => false
  | some i => isSetd i

/-- Whether an event writes `BTN`: `RST`, or an operation that does. -/
def eventWritesBtn (c : Cfg) (e : Event) : Bool :=
  match eventInstr c e with
  | none => true
  | some i => writesBtn i

/-- The events of an offer: one, or the two of the same instant. -/
def Offer.events : Offer → List Event
  | .one e => [e]
  | .both p h => [.packet p, .command h]

/-- The gate is closed behind the request `r`, and no event that is offered opens it (R27, R195). -/
structure GateClosed (r : DisplayRequest) (s : State) : Prop where
  closed : s.inflight = true
  request : s.last = r
  unopened : ∀ o ∈ s.inbox, ∀ e ∈ o.events, eventOpensGate s.cfg e = false

/-- The byte lists the block can send (R28, R65): the two initialisation bytes and the encodings of requests. -/
def SendForm (c : Cfg) (l : List Byte) : Prop :=
  l = [c.cmdBiocOn] ∨ l = [c.cmdLedUsr] ∨ ∃ r : DisplayRequest, l = encodeRequest c r

/-- The responses the block can give (R68, R151(e)): data is 0 unless the status is OK, and never has bit 6. -/
def ResponseForm (r : Response) : Prop :=
  r.data &&& 0x40#8 = 0#8 ∧ (r.status ≠ .ok → r.data = 0#8)

/-- The invariant of the machine: a configuration inside its constraints (R175(4)), `BTN[6] = 0` (R23), only the known
send requests in `OUT` (R65), only the known responses, and nothing on the model's own drive port (log 6). -/
structure MachineInv (s : State) : Prop where
  cfgValid : s.cfg.Valid
  btnBit6 : s.btn &&& 0x40#8 = 0#8
  outForms : ∀ l ∈ s.out, SendForm s.cfg l
  responseForms : ∀ r ∈ s.responses, ResponseForm r
  driveEmpty : s.drive = none

end Sys2Proof.Machine
end

