-- ==== Sys2Proof/Certificates/Slice0/Obligations.lean ====
section
/-! DEFINITION. The statements for the provers, grouped by what they are about. Each docstring names the rules of spec/
that it formalises; a clause that rests on the model's own choice names its log entry. -/
open Sys2Proof Sys2Proof.Machine

/-! ### Steps -/

/-- R6, R31, R47: a step takes the oldest offer, decodes it and runs exactly the decoded operation on the state without
that offer; a hardware reset is performed; with nothing offered the state is unchanged. The inbox (log 3) and the drive
port (log 6) are the model's own form. -/
def Obligations.StepRunsTheOfferedOperation : Prop :=
  (∀ (s : State) (p : Packet) (rest : List Offer), s.cfg.Valid → s.drive = none →
    s.inbox = .one (.packet p) :: rest → step s = exec (decodePacket s.cfg p) { s with inbox := rest }) ∧
  (∀ (s : State) (h : HostCmd) (rest : List Offer), s.cfg.Valid → s.drive = none →
    s.inbox = .one (.command h) :: rest → step s = exec (decodeCommand h) { s with inbox := rest }) ∧
  (∀ (s : State) (rest : List Offer), s.cfg.Valid → s.drive = none →
    s.inbox = .one .rst :: rest → step s = .next (hardReset { s with inbox := rest })) ∧
  (∀ s : State, s.cfg.Valid → s.drive = none → s.inbox = [] → step s = .next s) ∧
  (∀ (s : State) (l : List Byte) (i : Instr), s.cfg.Valid → s.drive = some l →
    decode s.cfg .outbound l = .ok i → step s = exec i { s with drive := none })

/-- Wherever the decoder reads an operation from bytes of a channel, the step on the state in which those bytes are
placed runs that operation, and so for every word of the opcode table. The placing is the model's own (logs 3, 6, 8). -/
def Obligations.PlacedBytesRunAsDecoded : Prop :=
  (∀ (s : State) (ch : Channel) (l : List Byte) (i : Instr), s.cfg.Valid → decode s.cfg ch l = .ok i →
    i.wellFormed s.cfg = true ∧ step (placeBytes ch l s) = exec i { s with drive := none }) ∧
  (∀ (s : State) (nbits w : Nat) (i : Instr), s.cfg = cfgRef → decodeTableWord nbits w = some i →
    step (s.withFetchWord nbits w) = exec i { s with drive := none })

/-- R170: every event is defined in every state, and after any step the block accepts any event: whatever sequence of
events the environment chooses, from whatever state, each of them completes. -/
def Obligations.EveryEventCompletes : Prop :=
  (∀ (e : Event) (s : State), ∃ t, handle e s = .next t) ∧
  (∀ (es : List Event) (s : State), ∃ t, handleAll es s = .next t)

/-- R175(4) with 93 X8, and the model's own drive port (logs 6, 9): the only two stops of a step, which completes in
every other state. -/
def Obligations.StepStopsOnlyOutsideTheContract : Prop :=
  (∀ s : State, s.cfg.Valid → s.drive = none →
    ∃ t, step s = .next t ∧ t.cfg.Valid ∧ t.drive = none) ∧
  (∀ s : State, ¬ s.cfg.Valid → step s = .refused .configOutsideContract) ∧
  (∀ (s : State) (l : List Byte) (e : Reject), s.cfg.Valid → s.drive = some l →
    decode s.cfg .outbound l = .error e → step s = .refused .driveNotACommand) ∧
  (∀ (s : State) (r : Refusal), step s = .refused r →
    ¬ s.cfg.Valid ∨ ∃ l e, s.drive = some l ∧ decode s.cfg .outbound l = .error e)

/-- R48, R166: of a packet and a command offered at the same instant, one is taken now and the other stays offered; which
one is the free value `Config.packetFirst` (log 4), so a claim must hold for both. -/
def Obligations.SimultaneousOfferTakesOne : Prop :=
  ∀ (s : State) (p : Packet) (h : HostCmd) (rest : List Offer), s.cfg.Valid → s.drive = none →
    s.inbox = .both p h :: rest →
    step s = if Config.packetFirst s.draws then
        exec (decodePacket s.cfg p) { s with inbox := .one (.command h) :: rest, draws := s.draws + 1 }
      else exec (decodeCommand h) { s with inbox := .one (.packet p) :: rest, draws := s.draws + 1 }

/-- R48, R166: two steps of the machine handle a packet and a command of the same instant completely, as the two events
in one order or in the other. The offers and the draw counter are the model's own (logs 3, 4). -/
def Obligations.SimultaneousEventsInEitherOrder : Prop :=
  ∀ (s : State) (p : Packet) (h : HostCmd) (rest : List Offer), s.cfg.Valid → s.drive = none →
    s.inbox = .both p h :: rest →
    Host.Core.run core 2 s = handleAll [.packet p, .command h] { s with inbox := rest, draws := s.draws + 1 } ∨
    Host.Core.run core 2 s = handleAll [.command h, .packet p] { s with inbox := rest, draws := s.draws + 1 }

/-- R166 (a) to (c): the three cases in which the order of two simultaneous events shows, each with the result of both
orders; and every host command has exactly one response. -/
def Obligations.OrderOfSimultaneousEventsShows : Prop :=
  (∀ (s : State) (p : Packet) (h : HostCmd), s.cfg.Valid → s.inflight = true →
    (p.b0 = s.cfg.tagAck ∨ p.b0 = s.cfg.tagReset) → h.op = 0x01#8 →
    (∃ t, handleAll [.packet p, .command h] s = .next t ∧ t.inflight = true ∧
      t.responses = s.responses ++ [⟨.ok, 0x00⟩]) ∧
    (∃ t, handleAll [.command h, .packet p] s = .next t ∧ t.inflight = false ∧
      t.responses = s.responses ++ [⟨.busy, 0x00⟩])) ∧
  (∀ (s : State) (p : Packet) (h : HostCmd), p.b0 = s.cfg.tagBiocEvent → h.op = 0x02#8 → h.dstOk = true →
    (∃ t, handleAll [.packet p, .command h] s = .next t ∧ t.btn = 0x00#8 ∧
      t.responses = s.responses ++ [⟨.ok, compose p.b1 p.b2⟩]) ∧
    (∃ t, handleAll [.command h, .packet p] s = .next t ∧ t.btn = compose p.b1 p.b2 ∧
      t.responses = s.responses ++ [⟨.ok, s.btn⟩])) ∧
  (∀ (s : State) (p : Packet) (h : HostCmd), s.cfg.Valid → s.inflight = false →
    p.b0 = s.cfg.tagReset → h.op = 0x01#8 →
    (∃ t, handleAll [.packet p, .command h] s = .next t ∧ t.inflight = true ∧
      t.out = s.out ++ [[s.cfg.cmdBiocOn], [s.cfg.cmdLedUsr], encodeRequest s.cfg s.last,
        encodeRequest s.cfg (requestOf h)]) ∧
    (∃ t, handleAll [.command h, .packet p] s = .next t ∧ t.inflight = false ∧
      t.out = s.out ++ [encodeRequest s.cfg (requestOf h), [s.cfg.cmdBiocOn], [s.cfg.cmdLedUsr],
        encodeRequest s.cfg (requestOf h)])) ∧
  (∀ (s : State) (h : HostCmd), ∃ t r, handle (.command h) s = .next t ∧ t.responses = s.responses ++ [r])

/-- R174 with the model's inbox (log 3): a machine that is offered a sequence of events, one at a time, handles exactly
that sequence, one event a step. -/
def Obligations.MachineRunIsEventRun : Prop :=
  ∀ (es : List Event) (s : State), s.cfg.Valid → s.drive = none → s.inbox = offersOf es →
    Host.Core.run core es.length s = handleAll es { s with inbox := [] }

/-! ### Reset -/

/-- R190: the hardware reset clears `BTN`, `INFLIGHT` and `OUT`, sends nothing and leaves the configuration, in every
state. Of `LAST`, which it leaves unspecified, nothing is stated. -/
def Obligations.HardwareResetEvent : Prop :=
  ∀ s : State, ∃ t, handle .rst s = .next t ∧ t.btn = 0x00#8 ∧ t.inflight = false ∧ t.out = [] ∧
    t.cfg = s.cfg

/-- R29: the state after reset, and `LAST` stable from a reset until an admitted set-display writes it. -/
def Obligations.ResetValuesAndStableLast : Prop :=
  (State.reset.btn = 0x00#8 ∧ State.reset.inflight = false ∧ State.reset.out = []) ∧
  (∀ s : State, (hardReset s).btn = 0x00#8 ∧ (hardReset s).inflight = false ∧ (hardReset s).out = []) ∧
  (∀ (s : State) (es : List Event) (t : State), runFromReset es s = .next t → (∀ e ∈ es, e ≠ .rst) →
    t.last = (hardReset s).last ∨
    ∃ pre h post u, es = pre ++ .command h :: post ∧ h.op = 0x01#8 ∧ runFromReset pre s = .next u ∧
      u.inflight = false)

/-- The model's own choices at reset (logs 1 to 6): `LAST` is the next free draw, the configuration of `State.reset` is
`CFG_REF`, nothing is offered, answered or driven, and a hardware reset keeps the offers and drops the responses. -/
def Obligations.ModelFieldsAtReset : Prop :=
  (∀ s : State, handle .rst s = .next
    { s with btn := 0x00, last := Config.resetLast s.draws, inflight := false, out := [], responses := [],
             draws := s.draws + 1 }) ∧
  State.reset.last = Config.resetLast 0 ∧ State.reset.draws = 1 ∧
  State.reset.cfg = cfgRef ∧ State.reset.inbox = [] ∧ State.reset.responses = [] ∧ State.reset.drive = none

/-! ### Packets -/

/-- R92: the button-event packet overwrites `BTN` and changes nothing else. -/
def Obligations.ButtonEventPacket : Prop :=
  (∀ (s : State) (b1 b2 : Byte), exec (.pktBioc b1 b2) s = .next { s with btn := compose b1 b2 }) ∧
  (∀ (c : Cfg) (b1 b2 : Byte), decodePacket c ⟨c.tagBiocEvent, b1, b2⟩ = .pktBioc b1 b2) ∧
  compose 0x00 0x00 = 0x00#8 ∧ compose 0xF0 0xF0 = 0x00#8 ∧ compose 0x08 0x04 = 0x08#8 ∧
  compose 0x05 0x02 = 0x25#8

/-- R94: the reset packet re-initialises, replays `LAST` and opens the gate, whatever the flag was; 7 or 8 bytes in all;
nothing else changes. -/
def Obligations.ResetPacket : Prop :=
  (∀ s : State, exec .pktReset s =
    .next { s with
      out := s.out ++ [[s.cfg.cmdBiocOn], [s.cfg.cmdLedUsr], encodeRequest s.cfg s.last], inflight := false }) ∧
  (∀ (c : Cfg) (b1 b2 : Byte), c.Valid → decodePacket c ⟨c.tagReset, b1, b2⟩ = .pktReset) ∧
  (∀ (c : Cfg) (r : DisplayRequest),
    ([c.cmdBiocOn] ++ [c.cmdLedUsr] ++ encodeRequest c r).length = if r.en = 0b0111#4 then 7 else 8) ∧
  encodeRequest cfgRef ⟨1, 2, 3, 4, 0b0111, 0⟩ = [0xC6, 0x07, 0x06, 0xCB, 0x8F]

/-- R95: the acknowledgment packet opens the gate and changes nothing else; a set-display after it is admitted. -/
def Obligations.AcknowledgmentPacket : Prop :=
  (∀ s : State, exec .pktAck s = .next { s with inflight := false }) ∧
  (∀ (c : Cfg) (b1 b2 : Byte), c.Valid → decodePacket c ⟨c.tagAck, b1, b2⟩ = .pktAck) ∧
  (∀ (s : State) (p : Packet) (h : HostCmd), s.cfg.Valid → p.b0 = s.cfg.tagAck → h.op = 0x01#8 →
    ∃ t u v, handle (.command h) s = .next t ∧ t.inflight = true ∧
      handle (.packet p) t = .next u ∧ u.inflight = false ∧
      handle (.command h) u = .next v ∧ v.responses = u.responses ++ [⟨.ok, 0x00⟩])

/-- R96: a packet with any other tag is consumed and changes nothing. -/
def Obligations.UnknownPacket : Prop :=
  (∀ (s : State) (t b1 b2 : Byte), exec (.pktUnk t b1 b2) s = .next s) ∧
  (∀ (c : Cfg) (t b1 b2 : Byte), t ≠ c.tagBiocEvent → t ≠ c.tagReset → t ≠ c.tagAck →
    decodePacket c ⟨t, b1, b2⟩ = .pktUnk t b1 b2)

/-- R62: the tag byte alone, all 8 bits of it, selects the operation, and 253 tag values are unrecognised. -/
def Obligations.TagByteSelectsOperation : Prop :=
  ∀ c : Cfg, c.Valid →
    (∀ p : Packet,
      (p.b0 = c.tagBiocEvent → decodePacket c p = .pktBioc p.b1 p.b2) ∧
      (p.b0 = c.tagReset → decodePacket c p = .pktReset) ∧
      (p.b0 = c.tagAck → decodePacket c p = .pktAck) ∧
      (c.namedTag p.b0 = false → decodePacket c p = .pktUnk p.b0 p.b1 p.b2)) ∧
    (Finset.univ.filter fun t : Fin 256 => c.namedTag (BitVec.ofFin t) = false).card = 253

/-- R64 and R63: the payload of every packet but a button event has no effect, and of a button event only the two low
nibbles have. -/
def Obligations.UnusedPayloadHasNoEffect : Prop :=
  (∀ (s : State) (b0 b1 b2 b1' b2' : Byte), b0 ≠ s.cfg.tagBiocEvent →
    handle (.packet ⟨b0, b1, b2⟩) s = handle (.packet ⟨b0, b1', b2'⟩) s) ∧
  (∀ (s : State) (b0 b1 b2 b1' b2' : Byte), b0 = s.cfg.tagBiocEvent → b1 &&& 0x0F#8 = b1' &&& 0x0F#8 →
    b2 &&& 0x0F#8 = b2' &&& 0x0F#8 →
    handle (.packet ⟨b0, b1, b2⟩) s = handle (.packet ⟨b0, b1', b2'⟩) s)

/-- R97: no packet step answers or sends anything but the three requests of the reset packet, writes `LAST` or sets the
flag, and only the button event writes `BTN`. This is the frame of the four packet operations. -/
def Obligations.PacketFrame : Prop :=
  ∀ (i : Instr) (s t : State), isPacket i = true → exec i s = .next t →
    (t.last = s.last ∧ t.responses = s.responses ∧ t.cfg = s.cfg ∧ t.inbox = s.inbox ∧ t.draws = s.draws ∧
      t.drive = s.drive) ∧
    (t.out = s.out ∨
      (i = .pktReset ∧ t.out = s.out ++ [[s.cfg.cmdBiocOn], [s.cfg.cmdLedUsr], encodeRequest s.cfg s.last])) ∧
    (t.inflight = true → s.inflight = true) ∧
    (opensGate i = false → t.inflight = s.inflight) ∧
    (t.btn = s.btn ∨ ∃ b1 b2, i = .pktBioc b1 b2 ∧ t.btn = compose b1 b2)

/-! ### Operands -/

/-- R91: `Compose` by its formula and bit by bit. -/
def Obligations.ComposeBitByBit : Prop :=
  ∀ b1 b2 : Byte,
    compose b1 b2 =
      ((b1 &&& 0x0F#8) ||| ((b2 &&& 0x02#8) <<< 4) ||| ((b2 &&& 0x04#8) <<< 1) ||| ((b2 &&& 0x09#8) <<< 4)) ∧
    (compose b1 b2).getLsbD 0 = b1.getLsbD 0 ∧
    (compose b1 b2).getLsbD 1 = b1.getLsbD 1 ∧
    (compose b1 b2).getLsbD 2 = b1.getLsbD 2 ∧
    (compose b1 b2).getLsbD 3 = (b1.getLsbD 3 || b2.getLsbD 2) ∧
    (compose b1 b2).getLsbD 4 = b2.getLsbD 0 ∧
    (compose b1 b2).getLsbD 5 = b2.getLsbD 1 ∧
    (compose b1 b2).getLsbD 6 = false ∧
    (compose b1 b2).getLsbD 7 = b2.getLsbD 3

/-- R93: range, high nibbles, collisions, monotonicity and the single-bit images of `Compose`. -/
def Obligations.ComposeProperties : Prop :=
  (∀ b1 b2 : Byte, compose b1 b2 &&& 0x40#8 = 0x00#8 ∧ (compose b1 b2).toNat ≤ 0xBF) ∧
  compose 0xFF 0xFF = 0xBF#8 ∧
  (∀ b1 b2 : Byte, compose b1 b2 = compose (b1 &&& 0x0F#8) (b2 &&& 0x0F#8)) ∧
  (compose 0x08 0x00 = 0x08#8 ∧ compose 0x00 0x04 = 0x08#8 ∧ compose 0x08 0x04 = 0x08#8) ∧
  (∀ b1 b2 c1 c2 : Byte, b1 &&& c1 = b1 → b2 &&& c2 = b2 → compose b1 b2 &&& compose c1 c2 = compose b1 b2) ∧
  (compose 0x00 0x01 = 0x10#8 ∧ compose 0x00 0x02 = 0x20#8 ∧ compose 0x00 0x04 = 0x08#8 ∧
    compose 0x00 0x08 = 0x80#8 ∧ compose 0x01 0x00 = 0x01#8 ∧ compose 0x02 0x00 = 0x02#8 ∧
    compose 0x04 0x00 = 0x04#8 ∧ compose 0x08 0x00 = 0x08#8)

/-- R69: every operand of a set-display is reduced to its low four bits before anything else, so the upper bits
influence neither the state nor the response nor the output. -/
def Obligations.SetdOperandsAreReduced : Prop :=
  (∀ d0 d1 d2 d3 en dp : Byte,
    (reduceRequest d0 d1 d2 d3 en dp).d0.toNat = d0.toNat % 16 ∧
    (reduceRequest d0 d1 d2 d3 en dp).d1.toNat = d1.toNat % 16 ∧
    (reduceRequest d0 d1 d2 d3 en dp).d2.toNat = d2.toNat % 16 ∧
    (reduceRequest d0 d1 d2 d3 en dp).d3.toNat = d3.toNat % 16 ∧
    (reduceRequest d0 d1 d2 d3 en dp).en.toNat = (en &&& 0x0F#8).toNat ∧
    (reduceRequest d0 d1 d2 d3 en dp).dp.toNat = (dp &&& 0x0F#8).toNat) ∧
  (∀ (s : State) (d0 d1 d2 d3 en dp : Byte),
    exec (.setd d0 d1 d2 d3 en dp) s =
      exec (.setd (d0 &&& 0x0F#8) (d1 &&& 0x0F#8) (d2 &&& 0x0F#8) (d3 &&& 0x0F#8) (en &&& 0x0F#8)
        (dp &&& 0x0F#8)) s) ∧
  (∀ d0 d1 d2 d3 dp : Byte, (reduceRequest d0 d1 d2 d3 0x17 dp).en = 0b0111#4) ∧
  (∀ (s : State) (d0 d1 d2 d3 en dp : Byte), s.inflight = false →
    ∃ t, exec (.setd d0 d1 d2 d3 en dp) s = .next t ∧ t.responses = s.responses ++ [⟨.ok, 0x00⟩])

/-- R111: the display encoder, its two forms and its pattern bytes. -/
def Obligations.EncodeTwoForms : Prop :=
  ∀ (c : Cfg) (r : DisplayRequest),
    let p (d : Nibble) (i : Nat) : Byte := c.seg[d.toNat] ||| (if r.dp.getLsbD i = true then c.dpBit else 0x00#8)
    (r.en = 0b0111#4 → encodeRequest c r = [c.cmdLedSet, 0x07, p r.d0 0, p r.d1 1, p r.d2 2]) ∧
    (r.en ≠ 0b0111#4 → encodeRequest c r = [c.cmdLedSet, 0x0F, p r.d0 0, p r.d1 1, p r.d2 2, p r.d3 3])

/-- R112: the corner cases of the encoder, (a) to (g). -/
def Obligations.EncodeCornerCases : Prop :=
  (∀ (c : Cfg) (r : DisplayRequest) (en : Nibble), r.en ≠ 0b0111#4 → en ≠ 0b0111#4 →
    encodeRequest c r = encodeRequest c { r with en := en }) ∧
  (∀ (c : Cfg) (r : DisplayRequest) (d3 dp : Nibble), r.en = 0b0111#4 →
    (∀ i, i < 3 → dp.getLsbD i = r.dp.getLsbD i) →
    encodeRequest c { r with d3 := d3, dp := dp } = encodeRequest c r) ∧
  (∀ (c : Cfg) (r : DisplayRequest), (encodeRequest c r).length = if r.en = 0b0111#4 then 5 else 6) ∧
  (∀ (c : Cfg) (r : DisplayRequest), (encodeRequest c r)[0]? = some c.cmdLedSet ∧
    (encodeRequest c r)[1]? = some (if r.en = 0b0111#4 then 0x07#8 else 0x0F#8)) ∧
  (∀ (c : Cfg) (r : DisplayRequest), c.Valid →
    (pattern0 c r &&& c.dpBit = c.dpBit ↔ r.dp.getLsbD 0 = true) ∧
    (pattern1 c r &&& c.dpBit = c.dpBit ↔ r.dp.getLsbD 1 = true) ∧
    (pattern2 c r &&& c.dpBit = c.dpBit ↔ r.dp.getLsbD 2 = true) ∧
    (pattern3 c r &&& c.dpBit = c.dpBit ↔ r.dp.getLsbD 3 = true)) ∧
  (∀ (c : Cfg) (r : DisplayRequest),
    (r.d0 = r.d1 → r.dp.getLsbD 0 = r.dp.getLsbD 1 → pattern0 c r = pattern1 c r) ∧
    (r.d0 = r.d2 → r.dp.getLsbD 0 = r.dp.getLsbD 2 → pattern0 c r = pattern2 c r) ∧
    (r.d0 = r.d3 → r.dp.getLsbD 0 = r.dp.getLsbD 3 → pattern0 c r = pattern3 c r) ∧
    (r.d1 = r.d2 → r.dp.getLsbD 1 = r.dp.getLsbD 2 → pattern1 c r = pattern2 c r) ∧
    (r.d1 = r.d3 → r.dp.getLsbD 1 = r.dp.getLsbD 3 → pattern1 c r = pattern3 c r) ∧
    (r.d2 = r.d3 → r.dp.getLsbD 2 = r.dp.getLsbD 3 → pattern2 c r = pattern3 c r))

/-! ### Host commands -/

/-- R67's table: the host opcode map. The `op` values are no part of the source but the spec's own choice (92 D16, log
18). -/
def Obligations.HostOpcodeMap : Prop :=
  ∀ h : HostCmd,
    (h.op = 0x00#8 → decodeCommand h = .init) ∧
    (h.op = 0x01#8 → decodeCommand h = .setd h.d0 h.d1 h.d2 h.d3 h.en h.dp) ∧
    (h.op = 0x02#8 → decodeCommand h = .rdb h.dstOk) ∧
    (0x03 ≤ h.op.toNat → decodeCommand h = .badcmd h.op)

/-- R131 with the procedure R130: `INIT` sends the two bytes, succeeds in every state, and writes no register. -/
def Obligations.InitCommand : Prop :=
  (∀ s : State, exec .init s =
    .next { s with
      out := s.out ++ [[s.cfg.cmdBiocOn], [s.cfg.cmdLedUsr]], responses := s.responses ++ [⟨.ok, 0x00⟩] }) ∧
  (∀ h : HostCmd, h.op = 0x00#8 → decodeCommand h = .init) ∧
  (∀ s : State, periphInit s = { s with out := s.out ++ [[s.cfg.cmdBiocOn], [s.cfg.cmdLedUsr]] })

/-- R140: set-display is Busy exactly while the gate is closed and changes nothing then; else it is admitted: flag set,
request stored, encoded and sent, OK. -/
def Obligations.SetDisplayCommand : Prop :=
  (∀ (s : State) (d0 d1 d2 d3 en dp : Byte), s.inflight = true →
    exec (.setd d0 d1 d2 d3 en dp) s = .next { s with responses := s.responses ++ [⟨.busy, 0x00⟩] }) ∧
  (∀ (s : State) (d0 d1 d2 d3 en dp : Byte), s.inflight = false →
    exec (.setd d0 d1 d2 d3 en dp) s =
      .next { s with
        inflight := true
        last := reduceRequest d0 d1 d2 d3 en dp
        out := s.out ++ [encodeRequest s.cfg (reduceRequest d0 d1 d2 d3 en dp)]
        responses := s.responses ++ [⟨.ok, 0x00⟩] }) ∧
  (∀ h : HostCmd, h.op = 0x01#8 → decodeCommand h = .setd h.d0 h.d1 h.d2 h.d3 h.en h.dp)

/-- R150: read-buttons returns the holder and clears it, or with a bad destination raises InvalidArgument and clears
nothing. -/
def Obligations.ReadButtonsCommand : Prop :=
  (∀ s : State, exec (.rdb false) s = .next { s with responses := s.responses ++ [⟨.invalid, 0x00⟩] }) ∧
  (∀ s : State, exec (.rdb true) s =
    .next { s with btn := 0x00, responses := s.responses ++ [⟨.ok, s.btn⟩] }) ∧
  (∀ h : HostCmd, h.op = 0x02#8 → decodeCommand h = .rdb h.dstOk)

/-- R152: any other command answers InvalidArgument and changes nothing. -/
def Obligations.UnsupportedCommand : Prop :=
  (∀ (s : State) (op : Byte), exec (.badcmd op) s =
    .next { s with responses := s.responses ++ [⟨.invalid, 0x00⟩] }) ∧
  (∀ h : HostCmd, 0x03 ≤ h.op.toNat → decodeCommand h = .badcmd h.op)

/-- R68: which status and data each host command answers, with the numeric codes; code 3 is never produced. -/
def Obligations.ResponseOfEachCommand : Prop :=
  (∀ (s : State) (h : HostCmd), ∃ t r, handle (.command h) s = .next t ∧ t.responses = s.responses ++ [r] ∧
    (r.status = .busy ↔ h.op = 0x01#8 ∧ s.inflight = true) ∧
    (r.status = .invalid ↔ (h.op = 0x02#8 ∧ h.dstOk = false) ∨ 0x03 ≤ h.op.toNat) ∧
    r.data = if h.op = 0x02#8 ∧ h.dstOk = true then s.btn else 0x00#8) ∧
  (Status.code .ok = 0#2 ∧ Status.code .busy = 1#2 ∧ Status.code .invalid = 2#2) ∧
  (∀ st : Status, st.code ≠ 3#2)

/-- R161, R162: Busy comes from set-display with the flag set and from nothing else, InvalidArgument from a bad
destination or an unsupported command and from nothing else; a step that raises an error changes nothing but the
response; and a retry after an acknowledgment or reset packet is admitted. -/
def Obligations.ErrorsChangeNothing : Prop :=
  (∀ (i : Instr) (s t : State) (r : Response), exec i s = .next t → t.responses = s.responses ++ [r] →
    (r.status = .busy ↔ isSetd i = true ∧ s.inflight = true) ∧
    (r.status = .invalid ↔ i = .rdb false ∨ ∃ op, i = .badcmd op) ∧
    (r.status ≠ .ok → t = { s with responses := s.responses ++ [⟨r.status, 0x00⟩] })) ∧
  (∀ (i : Instr) (s t : State) (d0 d1 d2 d3 en dp : Byte), opensGate i = true → exec i s = .next t →
    ∃ u, exec (.setd d0 d1 d2 d3 en dp) t = .next u ∧ u.responses = t.responses ++ [⟨.ok, 0x00⟩]) ∧
  (Status.code .busy = 1#2 ∧ Status.code .invalid = 2#2)

/-- R30, R131, R140, R150, R152: what the four host commands leave unchanged. The configuration, the offers, the draws
and the drive port are the model's form (logs 2, 3, 4, 6). -/
def Obligations.HostCommandFrame : Prop :=
  ∀ (i : Instr) (s t : State), i.channel = .host → exec i s = .next t →
    (t.cfg = s.cfg ∧ t.inbox = s.inbox ∧ t.draws = s.draws ∧ t.drive = s.drive) ∧
    (t.btn = s.btn ∨ (i = .rdb true ∧ t.btn = 0x00#8)) ∧
    (isSetd i = false → t.last = s.last ∧ t.inflight = s.inflight) ∧
    (s.inflight = true → t.last = s.last ∧ t.inflight = true) ∧
    (isSetd i = false → i ≠ .init → t.out = s.out)

/-! ### Outbound commands -/

/-- R132, R133, R70: the two single-byte commands, each one send request of its one byte; nothing else changes. -/
def Obligations.SingleByteCommands : Prop :=
  (∀ s : State, exec .biocOn s = .next { s with out := s.out ++ [[s.cfg.cmdBiocOn]] }) ∧
  (∀ s : State, exec .ledUsr s = .next { s with out := s.out ++ [[s.cfg.cmdLedUsr]] }) ∧
  (∀ c : Cfg, encode c .biocOn = [c.cmdBiocOn] ∧ encode c .ledUsr = [c.cmdLedUsr])

/-- R71, R113: the two forms of the set-display command, by their pattern bytes (the operand form is the model's choice,
log 7), each one send request of exact length; nothing else changes. -/
def Obligations.SetDisplayCommandBytes : Prop :=
  (∀ (s : State) (p0 p1 p2 : Byte), exec (.ledSet3 p0 p1 p2) s =
    .next { s with out := s.out ++ [[s.cfg.cmdLedSet, 0x07, p0, p1, p2]] }) ∧
  (∀ (s : State) (p0 p1 p2 p3 : Byte), exec (.ledSet4 p0 p1 p2 p3) s =
    .next { s with out := s.out ++ [[s.cfg.cmdLedSet, 0x0F, p0, p1, p2, p3]] })

/-- R113: `LED_SET(req)` is one send request of `Encode(req)`, reads and writes no register, and the document's example
comes out in symbols. -/
def Obligations.LedSetSendsEncode : Prop :=
  (∀ (s : State) (r : DisplayRequest),
    exec (ledSetOf s.cfg r) s = .next { s with out := s.out ++ [encodeRequest s.cfg r] }) ∧
  (∀ (c : Cfg) (r : DisplayRequest), encode c (ledSetOf c r) = encodeRequest c r) ∧
  (∀ c : Cfg,
    encodeRequest c ⟨1, 2, 3, 4, 0b0111, 0⟩ = [c.cmdLedSet, 0x07, c.seg[1], c.seg[2], c.seg[3]] ∧
    encodeRequest c ⟨1, 2, 3, 4, 0b1111, 0⟩ = [c.cmdLedSet, 0x0F, c.seg[1], c.seg[2], c.seg[3], c.seg[4]])

/-- R30, R113, R132, R133: the outbound commands touch nothing but `OUT`, which grows by one send request. -/
def Obligations.OutboundFrame : Prop :=
  ∀ (i : Instr) (s t : State), i.channel = .outbound → exec i s = .next t →
    t = { s with out := t.out } ∧ t.out = s.out ++ [encode s.cfg i]

/-! ### Encodings -/

/-- Decode and encode agree on every well-formed operation, at every operand value. `LED_USR` needs its command byte to
differ from `BIOC_ON`'s, which R9 does not demand (log 15). The eight bytes of a host command are the model's own layout
(log 8). -/
def Obligations.DecodeEncodeRoundTrip : Prop :=
  ∀ (c : Cfg) (i : Instr), c.Valid → i.wellFormed c = true → (i = .ledUsr → c.cmdLedUsr ≠ c.cmdBiocOn) →
    decode c i.channel (encode c i) = .ok i

/-- Encode and decode agree the other way, up to the bits the block ignores (R64, R66): the decoder gives only
well-formed operations of the channel it read, and the bytes it read are the encoding where no bit is ignored. Of a host
command, in the model's own layout of eight bytes (log 8), `op` is never ignored, the six operands of a set-display are
not, and `dst_ok` of a read is not. -/
def Obligations.DecodedBytesAreTheEncoding : Prop :=
  ∀ (c : Cfg) (ch : Channel) (l : List Byte) (i : Instr), decode c ch l = .ok i →
    i.wellFormed c = true ∧ i.channel = ch ∧ (encode c i).length = l.length ∧
    (ch = .outbound → encode c i = l) ∧
    (ch ≠ .outbound → (encode c i)[0]? = l[0]?) ∧
    (ch = .inbound → i ≠ .pktReset → i ≠ .pktAck → encode c i = l) ∧
    (isSetd i = true → (encode c i).take 7 = l.take 7) ∧
    (∀ dstOk : Bool, i = .rdb dstOk → (encode c i).getLast? = l.getLast?)

/-- Words written out under `CFG_REF`, whose values are presumed (log 2), decode to their rows: packets and outbound
commands as 95_test_vectors.md and the table's `match_cfg_ref` print them; the host commands in the model's own layout of
eight bytes, and the two table words in the model's own numbering of a table word (log 8). -/
def Obligations.SampleWordsDecode : Prop :=
  decode cfgRef .inbound [0x41, 0x05, 0x02] = .ok (.pktBioc 0x05 0x02) ∧
  decode cfgRef .inbound [0x42, 0xFF, 0xFF] = .ok .pktReset ∧
  decode cfgRef .inbound [0x40, 0xAB, 0xCD] = .ok .pktAck ∧
  decode cfgRef .inbound [0x43, 0x0F, 0x0F] = .ok (.pktUnk 0x43 0x0F 0x0F) ∧
  decode cfgRef .host [0x01, 0x11, 0x22, 0x33, 0x44, 0xF7, 0xF0, 0x00] =
    .ok (.setd 0x11 0x22 0x33 0x44 0xF7 0xF0) ∧
  decode cfgRef .host [0x02, 0, 0, 0, 0, 0, 0, 1] = .ok (.rdb true) ∧
  decode cfgRef .outbound [0xC6, 0x07, 0x06, 0xCB, 0x8F] = .ok (.ledSet3 0x06 0xCB 0x8F) ∧
  decodeTableWord 24 0x410502 = some (.pktBioc 0x05 0x02) ∧
  decodeTableWord 8 0xC3 = some .biocOn

/-! ### Whole-machine rules and runs -/

/-- The invariant `MachineInv` is kept by every step, from every state that has it. -/
def Obligations.StepKeepsInvariant : Prop :=
  ∀ s t : State, MachineInv s → step s = .next t → MachineInv t

/-- The invariant holds right after reset; the configuration there is the model's choice (log 2). -/
def Obligations.InvariantAtReset : Prop := MachineInv State.reset

/-- R32, R175(4): no step changes the configuration, and none puts anything on the model's own drive port (log 6). -/
def Obligations.StepKeepsConfiguration : Prop :=
  ∀ s t : State, step s = .next t → t.cfg = s.cfg ∧ (s.drive = none → t.drive = none)

/-- R30: the access table, row by row: what each operation does to `BTN`, `LAST`, `INFLIGHT` and `OUT`. -/
def Obligations.AccessTable : Prop :=
  ∀ (e : Event) (s t : State), s.cfg.Valid → handle e s = .next t →
    (e = .rst → t.btn = 0x00#8 ∧ t.inflight = false ∧ t.out = []) ∧
    (∀ p, e = .packet p →
      t.last = s.last ∧
      (p.b0 = s.cfg.tagBiocEvent → t.btn = compose p.b1 p.b2 ∧ t.inflight = s.inflight ∧ t.out = s.out) ∧
      (p.b0 = s.cfg.tagReset → t.btn = s.btn ∧ t.inflight = false ∧
        t.out = s.out ++ [[s.cfg.cmdBiocOn], [s.cfg.cmdLedUsr], encodeRequest s.cfg s.last]) ∧
      (p.b0 = s.cfg.tagAck → t.btn = s.btn ∧ t.inflight = false ∧ t.out = s.out) ∧
      (s.cfg.namedTag p.b0 = false → t = s)) ∧
    (∀ h, e = .command h →
      (h.op = 0x00#8 → t.btn = s.btn ∧ t.last = s.last ∧ t.inflight = s.inflight ∧
        t.out = s.out ++ [[s.cfg.cmdBiocOn], [s.cfg.cmdLedUsr]]) ∧
      (h.op = 0x01#8 → t.btn = s.btn ∧ t.inflight = true ∧
        (s.inflight = false → t.last = requestOf h ∧ t.out = s.out ++ [encodeRequest s.cfg (requestOf h)]) ∧
        (s.inflight = true → t.last = s.last ∧ t.out = s.out)) ∧
      (h.op = 0x02#8 → t.last = s.last ∧ t.inflight = s.inflight ∧ t.out = s.out ∧
        t.btn = if h.dstOk then 0x00#8 else s.btn) ∧
      (0x03 ≤ h.op.toNat → t.btn = s.btn ∧ t.last = s.last ∧ t.inflight = s.inflight ∧ t.out = s.out))

/-- R27: the transitions of `INFLIGHT`: from 0 to 1 exactly by a set-display, from 1 to 0 exactly by an acknowledgment
packet, a reset packet or the hardware reset. -/
def Obligations.InflightTransitions : Prop :=
  ∀ (e : Event) (s t : State), handle e s = .next t →
    (s.inflight = false → (t.inflight = true ↔ eventIsSetd s.cfg e = true)) ∧
    (s.inflight = true → (t.inflight = false ↔ eventOpensGate s.cfg e = true))

/-- R171: the rights of the two contexts over the state, what each can do and what it cannot. -/
def Obligations.RightsOfTheTwoContexts : Prop :=
  (∀ (p : Packet) (s t : State), handle (.packet p) s = .next t →
    t.last = s.last ∧ (t.inflight = s.inflight ∨ t.inflight = false) ∧
    (t.btn = s.btn ∨ ∃ b1 b2, t.btn = compose b1 b2)) ∧
  (∀ (h : HostCmd) (s t : State), handle (.command h) s = .next t →
    (s.inflight = true → t.inflight = true) ∧ (t.btn = s.btn ∨ t.btn = 0x00#8)) ∧
  (∀ (s : State) (b1 b2 : Byte), ∃ p t, handle (.packet p) s = .next t ∧ t.btn = compose b1 b2) ∧
  (∀ s : State, s.cfg.Valid → ∃ p t, handle (.packet p) s = .next t ∧ t.inflight = false) ∧
  (∀ (s : State) (r : DisplayRequest), s.inflight = false →
    ∃ h t, handle (.command h) s = .next t ∧ t.last = r ∧ t.inflight = true) ∧
  (∀ s : State, ∃ h t, handle (.command h) s = .next t ∧ t.btn = 0x00#8)

/-- R28, R49: `OUT` is never read and only grows at its end between hardware resets: by at most three send requests a
step, each non-empty and of a known form. -/
def Obligations.OutGrowsAtItsEndUnread : Prop :=
  ∀ (e : Event) (s t : State) (o : List (List Byte)), e ≠ .rst → handle e s = .next t →
    ∃ ls, t.out = s.out ++ ls ∧ ls.length ≤ 3 ∧ (∀ l ∈ ls, l ≠ [] ∧ SendForm s.cfg l) ∧
      handle e { s with out := o } = .next { t with out := o ++ ls }

/-- R45: which events are idempotent on the registers and which are not. -/
def Obligations.IdempotentEvents : Prop :=
  (∀ (i : Instr) (s t : State), isPacket i = true → i ≠ .pktReset → exec i s = .next t → exec i t = .next t) ∧
  (∀ s t : State, exec .pktReset s = .next t →
    exec .pktReset t = .next { t with out := t.out ++ [[s.cfg.cmdBiocOn], [s.cfg.cmdLedUsr],
      encodeRequest s.cfg s.last] }) ∧
  (∀ s : State, ∃ t, exec .init s = .next t ∧ t.btn = s.btn ∧ t.last = s.last ∧ t.inflight = s.inflight ∧
    t.out = s.out ++ [[s.cfg.cmdBiocOn], [s.cfg.cmdLedUsr]]) ∧
  (∀ s t : State, exec (.rdb true) s = .next t →
    t.responses = s.responses ++ [⟨.ok, s.btn⟩] ∧
    exec (.rdb true) t = .next { t with responses := t.responses ++ [⟨.ok, 0x00⟩] }) ∧
  (∀ (s t : State) (d0 d1 d2 d3 en dp : Byte), exec (.setd d0 d1 d2 d3 en dp) s = .next t →
    exec (.setd d0 d1 d2 d3 en dp) t = .next { t with responses := t.responses ++ [⟨.busy, 0x00⟩] })

/-- R23: in every reachable state `BTN[6] = 0` and `BTN <= 0xBF`. -/
def Obligations.ButtonBitSixNeverSet : Prop :=
  ∀ (es : List Event) (s t : State), runFromReset es s = .next t →
    t.btn &&& 0x40#8 = 0x00#8 ∧ t.btn.toNat ≤ 0xBF

/-- R21, R53(a): the next good read returns the mask of the most recent button-event packet, whatever else happened in
between, and clears it. -/
def Obligations.ReadReturnsMostRecentMask : Prop :=
  ∀ (s : State) (b1 b2 : Byte) (es : List Event) (h : HostCmd),
    (∀ e ∈ es, eventWritesBtn s.cfg e = false) → h.op = 0x02#8 → h.dstOk = true →
    ∃ t rs, handleAll (.packet ⟨s.cfg.tagBiocEvent, b1, b2⟩ :: es ++ [.command h]) s = .next t ∧
      t.responses = rs ++ [⟨.ok, compose b1 b2⟩] ∧ t.btn = 0x00#8

/-- R142: in every run from a reset, a closed gate goes back to an admitted set-display with no acknowledgment, reset
packet or hardware reset since; and between two admitted set-displays lies one of those. -/
def Obligations.GateInvariant : Prop :=
  (∀ (es : List Event) (s t : State), runFromReset es s = .next t → t.inflight = true →
    ∃ pre h post u, es = pre ++ .command h :: post ∧ h.op = 0x01#8 ∧ runFromReset pre s = .next u ∧
      u.inflight = false ∧ ∀ e ∈ post, eventOpensGate s.cfg e = false) ∧
  (∀ (es mid : List Event) (h : HostCmd) (s t : State), h.op = 0x01#8 →
    runFromReset (es ++ .command h :: mid) s = .next t → t.inflight = false →
    ∃ e ∈ mid, eventOpensGate s.cfg e = true)

/-- R195: once a set-display is in flight, without an acknowledgment packet, a reset packet or a hardware reset the gate
stays closed for ever: every later set-display is Busy, `LAST` stays, and only initialisation bytes are sent. -/
def Obligations.GateStaysClosed : Prop :=
  ∀ (es : List Event) (s : State), s.inflight = true → (∀ e ∈ es, eventOpensGate s.cfg e = false) →
    ∃ t ls, handleAll es s = .next t ∧ t.inflight = true ∧ t.last = s.last ∧ t.out = s.out ++ ls ∧
      (∀ l ∈ ls, l = [s.cfg.cmdBiocOn] ∨ l = [s.cfg.cmdLedUsr]) ∧
      ∀ d0 d1 d2 d3 en dp : Byte,
        exec (.setd d0 d1 d2 d3 en dp) t = .next { t with responses := t.responses ++ [⟨.busy, 0x00⟩] }

/-- R134: a reset packet replays exactly the bytes of the last admitted set-display, whatever came in between that
admitted no other: every set-display command among the events found the gate closed. Afterwards the gate is open. -/
def Obligations.ReplayIsExact : Prop :=
  ∀ (s : State) (h : HostCmd) (es : List Event) (p : Packet), s.cfg.Valid → s.inflight = false → h.op = 0x01#8 →
    p.b0 = s.cfg.tagReset → (∀ e ∈ es, e ≠ .rst) →
    (∀ pre k post v, es = pre ++ .command k :: post → k.op = 0x01#8 →
      handleAll (.command h :: pre) s = .next v → v.inflight = true) →
    ∃ t u os, handle (.command h) s = .next t ∧ t.out = s.out ++ [encodeRequest s.cfg (requestOf h)] ∧
      handleAll (.command h :: es ++ [.packet p]) s = .next u ∧
      u.out = os ++ [[s.cfg.cmdBiocOn], [s.cfg.cmdLedUsr], encodeRequest s.cfg (requestOf h)] ∧
      u.inflight = false

/-- R198: a reset packet before any admitted set-display replays the encoding of the unspecified value: a well-formed
packet of one of the two forms whose pattern bytes are segment entries with or without the decimal point. Holds for
every draw (log 1). -/
def Obligations.ReplayBeforeAnyRequest : Prop :=
  ∀ (s : State) (es : List Event) (p : Packet), s.cfg.Valid → p.b0 = s.cfg.tagReset →
    (∀ e ∈ es, e ≠ .rst ∧ eventIsSetd s.cfg e = false) →
    ∃ t os l, runFromReset (es ++ [.packet p]) s = .next t ∧ t.out = os ++ [l] ∧
      l = encodeRequest s.cfg (Config.resetLast s.draws) ∧
      (l.take 2 = [s.cfg.cmdLedSet, 0x07] ∧ l.length = 5 ∨ l.take 2 = [s.cfg.cmdLedSet, 0x0F] ∧ l.length = 6) ∧
      ∀ b ∈ l.drop 2, ∃ (n : Fin 16), b = s.cfg.seg[n.val] ∨ b = s.cfg.seg[n.val] ||| s.cfg.dpBit

/-- R174: the registers are observable only through their operations: `BTN` only through a good read, `INFLIGHT` only
through a set-display, `LAST` only through a reset packet. Two states that differ in one register are told apart by no
sequence of events without that operation. -/
def Obligations.RegistersSeenOnlyThroughTheirOperation : Prop :=
  (∀ (es : List Event) (s t : State) (v : Byte), (∀ e ∈ es, eventInstr s.cfg e ≠ some (.rdb true)) →
    handleAll es s = .next t → ∃ t', handleAll es { s with btn := v } = .next t' ∧ observed t' = observed t) ∧
  (∀ (es : List Event) (s t : State) (b : Bool), (∀ e ∈ es, eventIsSetd s.cfg e = false) →
    handleAll es s = .next t → ∃ t', handleAll es { s with inflight := b } = .next t' ∧ observed t' = observed t) ∧
  (∀ (es : List Event) (s t : State) (r : DisplayRequest), (∀ e ∈ es, eventInstr s.cfg e ≠ some .pktReset) →
    handleAll es s = .next t → ∃ t', handleAll es { s with last := r } = .next t' ∧ observed t' = observed t)

/-- R195 as a rule of one step: while the gate is closed and nothing that is offered opens it, no step of the machine
opens it or touches the request in flight, a driven command included. The offers and the drive port are the model's own
form (logs 3, 6). -/
def Obligations.StepKeepsGateClosed : Prop :=
  ∀ (r : DisplayRequest) (s t : State), GateClosed r s → step s = .next t → GateClosed r t
end

