-- ==== Sys2Proof/Laws/State.lean ====
section
/-! SUPPORT. One lemma per field per update of the state, each true by unfolding the update once. -/
namespace Sys2Proof.Machine

@[simp] theorem State.setBtn_btn (v : Byte) (s : State) : (s.setBtn v).btn = v := rfl
@[simp] theorem State.setBtn_last (v : Byte) (s : State) : (s.setBtn v).last = s.last := rfl
@[simp] theorem State.setBtn_inflight (v : Byte) (s : State) : (s.setBtn v).inflight = s.inflight := rfl
@[simp] theorem State.setBtn_out (v : Byte) (s : State) : (s.setBtn v).out = s.out := rfl
@[simp] theorem State.setBtn_cfg (v : Byte) (s : State) : (s.setBtn v).cfg = s.cfg := rfl
@[simp] theorem State.setBtn_inbox (v : Byte) (s : State) : (s.setBtn v).inbox = s.inbox := rfl
@[simp] theorem State.setBtn_responses (v : Byte) (s : State) : (s.setBtn v).responses = s.responses := rfl
@[simp] theorem State.setBtn_draws (v : Byte) (s : State) : (s.setBtn v).draws = s.draws := rfl
@[simp] theorem State.setBtn_drive (v : Byte) (s : State) : (s.setBtn v).drive = s.drive := rfl

@[simp] theorem State.setLast_btn (r : DisplayRequest) (s : State) : (s.setLast r).btn = s.btn := rfl
@[simp] theorem State.setLast_last (r : DisplayRequest) (s : State) : (s.setLast r).last = r := rfl
@[simp] theorem State.setLast_inflight (r : DisplayRequest) (s : State) : (s.setLast r).inflight = s.inflight := rfl
@[simp] theorem State.setLast_out (r : DisplayRequest) (s : State) : (s.setLast r).out = s.out := rfl
@[simp] theorem State.setLast_cfg (r : DisplayRequest) (s : State) : (s.setLast r).cfg = s.cfg := rfl
@[simp] theorem State.setLast_inbox (r : DisplayRequest) (s : State) : (s.setLast r).inbox = s.inbox := rfl
@[simp] theorem State.setLast_responses (r : DisplayRequest) (s : State) : (s.setLast r).responses = s.responses := rfl
@[simp] theorem State.setLast_draws (r : DisplayRequest) (s : State) : (s.setLast r).draws = s.draws := rfl
@[simp] theorem State.setLast_drive (r : DisplayRequest) (s : State) : (s.setLast r).drive = s.drive := rfl

@[simp] theorem State.setInflight_btn (b : Bool) (s : State) : (s.setInflight b).btn = s.btn := rfl
@[simp] theorem State.setInflight_last (b : Bool) (s : State) : (s.setInflight b).last = s.last := rfl
@[simp] theorem State.setInflight_inflight (b : Bool) (s : State) : (s.setInflight b).inflight = b := rfl
@[simp] theorem State.setInflight_out (b : Bool) (s : State) : (s.setInflight b).out = s.out := rfl
@[simp] theorem State.setInflight_cfg (b : Bool) (s : State) : (s.setInflight b).cfg = s.cfg := rfl
@[simp] theorem State.setInflight_inbox (b : Bool) (s : State) : (s.setInflight b).inbox = s.inbox := rfl
@[simp] theorem State.setInflight_responses (b : Bool) (s : State) : (s.setInflight b).responses = s.responses := rfl
@[simp] theorem State.setInflight_draws (b : Bool) (s : State) : (s.setInflight b).draws = s.draws := rfl
@[simp] theorem State.setInflight_drive (b : Bool) (s : State) : (s.setInflight b).drive = s.drive := rfl

@[simp] theorem State.send_btn (l : List Byte) (s : State) : (s.send l).btn = s.btn := rfl
@[simp] theorem State.send_last (l : List Byte) (s : State) : (s.send l).last = s.last := rfl
@[simp] theorem State.send_inflight (l : List Byte) (s : State) : (s.send l).inflight = s.inflight := rfl
@[simp] theorem State.send_out (l : List Byte) (s : State) : (s.send l).out = s.out ++ [l] := rfl
@[simp] theorem State.send_cfg (l : List Byte) (s : State) : (s.send l).cfg = s.cfg := rfl
@[simp] theorem State.send_inbox (l : List Byte) (s : State) : (s.send l).inbox = s.inbox := rfl
@[simp] theorem State.send_responses (l : List Byte) (s : State) : (s.send l).responses = s.responses := rfl
@[simp] theorem State.send_draws (l : List Byte) (s : State) : (s.send l).draws = s.draws := rfl
@[simp] theorem State.send_drive (l : List Byte) (s : State) : (s.send l).drive = s.drive := rfl

@[simp] theorem State.respond_btn (st : Status) (d : Byte) (s : State) : (s.respond st d).btn = s.btn := rfl
@[simp] theorem State.respond_last (st : Status) (d : Byte) (s : State) : (s.respond st d).last = s.last := rfl
@[simp] theorem State.respond_inflight (st : Status) (d : Byte) (s : State) : (s.respond st d).inflight = s.inflight := rfl
@[simp] theorem State.respond_out (st : Status) (d : Byte) (s : State) : (s.respond st d).out = s.out := rfl
@[simp] theorem State.respond_cfg (st : Status) (d : Byte) (s : State) : (s.respond st d).cfg = s.cfg := rfl
@[simp] theorem State.respond_inbox (st : Status) (d : Byte) (s : State) : (s.respond st d).inbox = s.inbox := rfl
@[simp] theorem State.respond_responses (st : Status) (d : Byte) (s : State) : (s.respond st d).responses = s.responses ++ [⟨st, d⟩] := rfl
@[simp] theorem State.respond_draws (st : Status) (d : Byte) (s : State) : (s.respond st d).draws = s.draws := rfl
@[simp] theorem State.respond_drive (st : Status) (d : Byte) (s : State) : (s.respond st d).drive = s.drive := rfl

@[simp] theorem State.setInbox_btn (l : List Offer) (s : State) : (s.setInbox l).btn = s.btn := rfl
@[simp] theorem State.setInbox_last (l : List Offer) (s : State) : (s.setInbox l).last = s.last := rfl
@[simp] theorem State.setInbox_inflight (l : List Offer) (s : State) : (s.setInbox l).inflight = s.inflight := rfl
@[simp] theorem State.setInbox_out (l : List Offer) (s : State) : (s.setInbox l).out = s.out := rfl
@[simp] theorem State.setInbox_cfg (l : List Offer) (s : State) : (s.setInbox l).cfg = s.cfg := rfl
@[simp] theorem State.setInbox_inbox (l : List Offer) (s : State) : (s.setInbox l).inbox = l := rfl
@[simp] theorem State.setInbox_responses (l : List Offer) (s : State) : (s.setInbox l).responses = s.responses := rfl
@[simp] theorem State.setInbox_draws (l : List Offer) (s : State) : (s.setInbox l).draws = s.draws := rfl
@[simp] theorem State.setInbox_drive (l : List Offer) (s : State) : (s.setInbox l).drive = s.drive := rfl

@[simp] theorem State.setDrive_btn (d : Option (List Byte)) (s : State) : (s.setDrive d).btn = s.btn := rfl
@[simp] theorem State.setDrive_last (d : Option (List Byte)) (s : State) : (s.setDrive d).last = s.last := rfl
@[simp] theorem State.setDrive_inflight (d : Option (List Byte)) (s : State) : (s.setDrive d).inflight = s.inflight := rfl
@[simp] theorem State.setDrive_out (d : Option (List Byte)) (s : State) : (s.setDrive d).out = s.out := rfl
@[simp] theorem State.setDrive_cfg (d : Option (List Byte)) (s : State) : (s.setDrive d).cfg = s.cfg := rfl
@[simp] theorem State.setDrive_inbox (d : Option (List Byte)) (s : State) : (s.setDrive d).inbox = s.inbox := rfl
@[simp] theorem State.setDrive_responses (d : Option (List Byte)) (s : State) : (s.setDrive d).responses = s.responses := rfl
@[simp] theorem State.setDrive_draws (d : Option (List Byte)) (s : State) : (s.setDrive d).draws = s.draws := rfl
@[simp] theorem State.setDrive_drive (d : Option (List Byte)) (s : State) : (s.setDrive d).drive = d := rfl

@[simp] theorem State.countDraw_btn (s : State) : (s.countDraw).btn = s.btn := rfl
@[simp] theorem State.countDraw_last (s : State) : (s.countDraw).last = s.last := rfl
@[simp] theorem State.countDraw_inflight (s : State) : (s.countDraw).inflight = s.inflight := rfl
@[simp] theorem State.countDraw_out (s : State) : (s.countDraw).out = s.out := rfl
@[simp] theorem State.countDraw_cfg (s : State) : (s.countDraw).cfg = s.cfg := rfl
@[simp] theorem State.countDraw_inbox (s : State) : (s.countDraw).inbox = s.inbox := rfl
@[simp] theorem State.countDraw_responses (s : State) : (s.countDraw).responses = s.responses := rfl
@[simp] theorem State.countDraw_draws (s : State) : (s.countDraw).draws = s.draws + 1 := rfl
@[simp] theorem State.countDraw_drive (s : State) : (s.countDraw).drive = s.drive := rfl
@[simp] theorem hardReset_btn (s : State) : (hardReset s).btn = 0x00#8 := rfl
@[simp] theorem hardReset_last (s : State) : (hardReset s).last = Config.resetLast s.draws := rfl
@[simp] theorem hardReset_inflight (s : State) : (hardReset s).inflight = false := rfl
@[simp] theorem hardReset_out (s : State) : (hardReset s).out = [] := rfl
@[simp] theorem hardReset_cfg (s : State) : (hardReset s).cfg = s.cfg := rfl
@[simp] theorem hardReset_inbox (s : State) : (hardReset s).inbox = s.inbox := rfl
@[simp] theorem hardReset_responses (s : State) : (hardReset s).responses = [] := rfl
@[simp] theorem hardReset_draws (s : State) : (hardReset s).draws = s.draws + 1 := rfl
@[simp] theorem hardReset_drive (s : State) : (hardReset s).drive = s.drive := rfl

end Sys2Proof.Machine
end

