-- ==== Sys2Proof/Laws/Ops.lean ====
section
/-! SUPPORT. For each shared operation and each meaning, everything it does, said once; later proofs cite these and
unfold nothing. -/
namespace Sys2Proof.Machine

theorem raiseError_eq (e : CoreError) (s : State) :
    raiseError e s = { s with responses := s.responses ++ [⟨e.status, 0x00⟩] } := rfl

theorem openGate_eq (s : State) : openGate s = { s with inflight := false } := rfl

theorem closeGate_eq (s : State) : closeGate s = { s with inflight := true } := rfl

theorem periphInit_eq (s : State) :
    periphInit s = { s with out := s.out ++ [[s.cfg.cmdBiocOn], [s.cfg.cmdLedUsr]] } := by
  simp [periphInit, sendLedUsr, sendBiocOn, State.send]

theorem sendLedSet_eq (r : DisplayRequest) (s : State) :
    sendLedSet r s = { s with out := s.out ++ [encodeRequest s.cfg r] } := rfl

theorem execPktReset_eq (s : State) :
    execPktReset s = .next { s with
      out := s.out ++ [[s.cfg.cmdBiocOn], [s.cfg.cmdLedUsr], encodeRequest s.cfg s.last], inflight := false } := by
  simp [execPktReset, openGate_eq, sendLedSet_eq, periphInit_eq]

theorem execInit_eq (s : State) :
    execInit s = .next { s with
      out := s.out ++ [[s.cfg.cmdBiocOn], [s.cfg.cmdLedUsr]], responses := s.responses ++ [⟨.ok, 0x00⟩] } := by
  simp [execInit, periphInit_eq, State.respond]

theorem execSetd_closed (d0 d1 d2 d3 en dp : Byte) (s : State) (h : s.inflight = true) :
    execSetd d0 d1 d2 d3 en dp s = .next { s with responses := s.responses ++ [⟨.busy, 0x00⟩] } := by
  simp [execSetd, gateClosed, h, raiseError_eq, CoreError.status]

theorem execSetd_open (d0 d1 d2 d3 en dp : Byte) (s : State) (h : s.inflight = false) :
    execSetd d0 d1 d2 d3 en dp s = .next { s with
      inflight := true
      last := reduceRequest d0 d1 d2 d3 en dp
      out := s.out ++ [encodeRequest s.cfg (reduceRequest d0 d1 d2 d3 en dp)]
      responses := s.responses ++ [⟨.ok, 0x00⟩] } := by
  simp [execSetd, gateClosed, h, closeGate_eq, State.setLast, State.respond, sendLedSet_eq]

theorem execRdb_bad (s : State) :
    execRdb false s = .next { s with responses := s.responses ++ [⟨.invalid, 0x00⟩] } := rfl

theorem execRdb_good (s : State) :
    execRdb true s = .next { s with btn := 0x00, responses := s.responses ++ [⟨.ok, s.btn⟩] } := rfl

/-- Every operation completes in every state (R170). -/
theorem exec_completes (i : Instr) (s : State) : ∃ t, exec i s = .next t := by
  cases i
  case setd =>
    cases h : s.inflight
    · exact ⟨_, execSetd_open _ _ _ _ _ _ s h⟩
    · exact ⟨_, execSetd_closed _ _ _ _ _ _ s h⟩
  case rdb b => cases b <;> exact ⟨_, rfl⟩
  all_goals exact ⟨_, rfl⟩

/-- The fields no operation of the table writes. -/
theorem exec_keeps_model_fields {i : Instr} {s t : State} (h : exec i s = .next t) :
    t.cfg = s.cfg ∧ t.inbox = s.inbox ∧ t.draws = s.draws ∧ t.drive = s.drive := by
  cases i
  case pktReset => simp only [exec, execPktReset_eq] at h; cases h; simp
  case init => simp only [exec, execInit_eq] at h; cases h; simp
  case setd =>
    cases hg : s.inflight
    · simp only [exec, execSetd_open _ _ _ _ _ _ s hg] at h; cases h; simp
    · simp only [exec, execSetd_closed _ _ _ _ _ _ s hg] at h; cases h; simp
  case rdb b => cases b <;> (cases h; exact ⟨rfl, rfl, rfl, rfl⟩)
  all_goals (cases h; exact ⟨rfl, rfl, rfl, rfl⟩)

/-- The offers are the environment's: no operation reads them. -/
theorem exec_setInbox (i : Instr) (s t : State) (l : List Offer) (h : exec i s = .next t) :
    exec i (s.setInbox l) = .next (t.setInbox l) := by
  cases i
  case pktReset => simp only [exec, execPktReset_eq] at h ⊢; cases h; rfl
  case init => simp only [exec, execInit_eq] at h ⊢; cases h; rfl
  case setd =>
    cases hg : s.inflight
    · simp only [exec, execSetd_open _ _ _ _ _ _ s hg] at h
      simp only [exec, execSetd_open _ _ _ _ _ _ (s.setInbox l) hg]; cases h; rfl
    · simp only [exec, execSetd_closed _ _ _ _ _ _ s hg] at h
      simp only [exec, execSetd_closed _ _ _ _ _ _ (s.setInbox l) hg]; cases h; rfl
  case rdb b => cases b <;> (cases h; rfl)
  all_goals (cases h; rfl)

/-- Everything the handling of an event can do: a hardware reset, or its operation. -/
theorem handle_cases (e : Event) (s : State) :
    (e = .rst ∧ handle e s = .next (hardReset s)) ∨
    (∃ p, e = .packet p ∧ handle e s = exec (decodePacket s.cfg p) s) ∨
    (∃ h, e = .command h ∧ handle e s = exec (decodeCommand h) s) := by
  cases e
  · exact .inl ⟨rfl, rfl⟩
  · exact .inr (.inl ⟨_, rfl, rfl⟩)
  · exact .inr (.inr ⟨_, rfl, rfl⟩)

/-- No event changes the configuration (R32). -/
theorem handle_cfg {e : Event} {s t : State} (h : handle e s = .next t) : t.cfg = s.cfg := by
  obtain ⟨-, he⟩ | ⟨_, -, he⟩ | ⟨_, -, he⟩ := handle_cases e s <;> rw [he] at h
  · cases h; rfl
  · exact (exec_keeps_model_fields h).1
  · exact (exec_keeps_model_fields h).1

end Sys2Proof.Machine
end

