-- ==== Sys2Proof/Laws/PerInstr.lean ====
section
/-! SUPPORT. Facts about every operation as syntax, one lemma per constructor of Instr. -/
namespace Sys2Proof.Laws.EncodeShape

/-- The exact length of the encoding on the operation's channel: 3 bytes inbound (R43, R61), 8 in the model's layout of
a host command (log 8), and 1, 5 or 6 outbound (R44). -/
def Statement (i : Instr) : Prop :=
  ∀ c : Cfg, match i.channel with
    | .inbound => (encode c i).length = 3
    | .host => (encode c i).length = 8
    | .outbound => (encode c i).length = 1 ∨ (encode c i).length = 5 ∨ (encode c i).length = 6

theorem pktBioc (b1 b2 : Byte) : Statement (.pktBioc b1 b2) := fun _ => rfl
theorem pktReset : Statement .pktReset := fun _ => rfl
theorem pktAck : Statement .pktAck := fun _ => rfl
theorem pktUnk (t b1 b2 : Byte) : Statement (.pktUnk t b1 b2) := fun _ => rfl
theorem init : Statement .init := fun _ => rfl
theorem setd (d0 d1 d2 d3 en dp : Byte) : Statement (.setd d0 d1 d2 d3 en dp) := fun _ => rfl
theorem rdb (dstOk : Bool) : Statement (.rdb dstOk) := fun _ => rfl
theorem badcmd (op : Byte) : Statement (.badcmd op) := fun _ => rfl
theorem biocOn : Statement .biocOn := fun _ => .inl rfl
theorem ledUsr : Statement .ledUsr := fun _ => .inl rfl
theorem ledSet3 (p0 p1 p2 : Byte) : Statement (.ledSet3 p0 p1 p2) := fun _ => .inr (.inl rfl)
theorem ledSet4 (p0 p1 p2 p3 : Byte) : Statement (.ledSet4 p0 p1 p2 p3) := fun _ => .inr (.inr rfl)

end Sys2Proof.Laws.EncodeShape
end

