-- ==== Sys2Proof/Laws/Run.lean ====
section
/-! SUPPORT. Sequences of events: one induction, packaged once. -/
namespace Sys2Proof.Machine

theorem handleAll_cons (e : Event) (es : List Event) (s u : State) :
    handleAll (e :: es) s = .next u ↔ ∃ t, handle e s = .next t ∧ handleAll es t = .next u := by
  simp only [handleAll]
  cases handle e s <;> simp

theorem handleAll_append (es fs : List Event) (s u : State) :
    handleAll (es ++ fs) s = .next u ↔ ∃ t, handleAll es s = .next t ∧ handleAll fs t = .next u := by
  induction es generalizing s with
  | nil => simp [handleAll]
  | cons e es ih =>
    simp only [List.cons_append, handleAll_cons, ih]
    constructor
    · rintro ⟨t, h1, v, h2, h3⟩; exact ⟨v, ⟨t, h1, h2⟩, h3⟩
    · rintro ⟨v, ⟨t, h1, h2⟩, h3⟩; exact ⟨t, h1, v, h2, h3⟩

/-- A property that each event of the list keeps holds at the end. -/
theorem handleAll_keeps {P : State → Prop} {es : List Event}
    (hstep : ∀ e ∈ es, ∀ s t, P s → handle e s = .next t → P t) {s u : State} (hs : P s)
    (h : handleAll es s = .next u) : P u := by
  induction es generalizing s with
  | nil => cases h; exact hs
  | cons e es ih =>
    obtain ⟨t, h1, h2⟩ := (handleAll_cons e es s u).mp h
    exact ih (fun e he => hstep e (List.mem_cons_of_mem _ he)) (hstep e List.mem_cons_self s t hs h1) h2

end Sys2Proof.Machine
end

