-- ==== Sys2Proof/Laws/Step.lean ====
section
/-! SUPPORT. Everything that decoding an event, taking one, fetching and one step can do, each said once. -/
namespace Sys2Proof.Machine

/-- The four ways a host command decodes (R67). -/
theorem decodeCommand_cases (h : HostCmd) :
    (h.op = 0x00#8 ∧ decodeCommand h = .init) ∨
    (h.op = 0x01#8 ∧ decodeCommand h = .setd h.d0 h.d1 h.d2 h.d3 h.en h.dp) ∨
    (h.op = 0x02#8 ∧ decodeCommand h = .rdb h.dstOk) ∨
    ((h.op ≠ 0x00#8 ∧ h.op ≠ 0x01#8 ∧ h.op ≠ 0x02#8) ∧ decodeCommand h = .badcmd h.op) := by
  unfold decodeCommand
  split
  · exact .inl ⟨‹_›, rfl⟩
  split
  · exact .inr (.inl ⟨‹_›, rfl⟩)
  split
  · exact .inr (.inr (.inl ⟨‹_›, rfl⟩))
  · exact .inr (.inr (.inr ⟨⟨‹_›, ‹_›, ‹_›⟩, rfl⟩))

/-- The four ways a packet decodes (R62, R90). -/
theorem decodePacket_cases (c : Cfg) (p : Packet) :
    (p.b0 = c.tagBiocEvent ∧ decodePacket c p = .pktBioc p.b1 p.b2) ∨
    (p.b0 = c.tagReset ∧ decodePacket c p = .pktReset) ∨
    (p.b0 = c.tagAck ∧ decodePacket c p = .pktAck) ∨
    ((p.b0 ≠ c.tagBiocEvent ∧ p.b0 ≠ c.tagReset ∧ p.b0 ≠ c.tagAck) ∧
      decodePacket c p = .pktUnk p.b0 p.b1 p.b2) := by
  unfold decodePacket
  split
  · exact .inl ⟨‹_›, rfl⟩
  split
  · exact .inr (.inl ⟨‹_›, rfl⟩)
  split
  · exact .inr (.inr (.inl ⟨‹_›, rfl⟩))
  · exact .inr (.inr (.inr ⟨⟨‹_›, ‹_›, ‹_›⟩, rfl⟩))

/-- Taking an event touches the offers and the draw counter only. -/
theorem takeEvent_keeps {s s' : State} {e : Event} (h : takeEvent s = some (e, s')) :
    s' = { s with inbox := s'.inbox, draws := s'.draws } := by
  unfold takeEvent at h
  split at h
  · cases h
  · cases h; rfl
  · split at h <;> (cases h; rfl)

@[simp] theorem Offer.events_one (e : Event) : (Offer.one e).events = [e] := rfl

@[simp] theorem Offer.events_both (p : Packet) (h : HostCmd) :
    (Offer.both p h).events = [.packet p, .command h] := rfl

/-- What holds of every offered event holds of the one taken and of those still offered. -/
theorem takeEvent_forall {P : Event → Prop} {s s' : State} {e : Event} (h : takeEvent s = some (e, s'))
    (hP : ∀ o ∈ s.inbox, ∀ f ∈ o.events, P f) : P e ∧ ∀ o ∈ s'.inbox, ∀ f ∈ o.events, P f := by
  unfold takeEvent at h
  split at h
  · cases h
  · cases h
    simp_all [State.setInbox]
    exact hP.2
  · split at h <;> cases h <;> simp_all [State.setInbox, State.countDraw] <;> exact hP.2

/-- Everything `fetch` can answer. -/
theorem fetch_cases (s : State) :
    (s.drive = none ∧ takeEvent s = none ∧ fetch s = .idle) ∨
    (∃ e s', s.drive = none ∧ takeEvent s = some (e, s') ∧
      ((eventInstr s'.cfg e = none ∧ fetch s = .reset s') ∨
       ∃ i, eventInstr s'.cfg e = some i ∧ fetch s = .run i s')) ∨
    (∃ l i, s.drive = some l ∧ decode s.cfg .outbound l = .ok i ∧ fetch s = .run i (s.setDrive none)) ∨
    (∃ l e, s.drive = some l ∧ decode s.cfg .outbound l = .error e ∧ fetch s = .badDrive) := by
  unfold fetch
  cases s.drive with
  | none =>
    cases ht : takeEvent s with
    | none => simp
    | some x =>
      obtain ⟨e, s'⟩ := x
      cases hi : eventInstr s'.cfg e with
      | none => exact .inr (.inl ⟨e, s', rfl, rfl, .inl ⟨hi, by simp [hi]⟩⟩)
      | some i => exact .inr (.inl ⟨e, s', rfl, rfl, .inr ⟨i, hi, by simp [hi]⟩⟩)
  | some l => cases hd : decode s.cfg .outbound l <;> simp [hd]

/-- Everything a step can do in a state with a valid configuration: idle, one event, one driven command, or a stop on
the drive port. -/
theorem step_cases {s : State} (hv : s.cfg.Valid) :
    (s.drive = none ∧ takeEvent s = none ∧ step s = .next s) ∨
    (∃ e s', s.drive = none ∧ takeEvent s = some (e, s') ∧ step s = handle e s') ∨
    (∃ l i, s.drive = some l ∧ decode s.cfg .outbound l = .ok i ∧ step s = exec i (s.setDrive none)) ∨
    (∃ l e, s.drive = some l ∧ decode s.cfg .outbound l = .error e ∧ step s = .refused .driveNotACommand) := by
  unfold step
  rw [if_pos hv]
  obtain ⟨h1, h2, h3⟩ | ⟨e, s', h1, h2, h3⟩ | ⟨l, i, h1, h2, h3⟩ | ⟨l, e, h1, h2, h3⟩ := fetch_cases s
  · exact .inl ⟨h1, h2, by rw [h3]⟩
  · refine .inr (.inl ⟨e, s', h1, h2, ?_⟩)
    obtain ⟨hi, h⟩ | ⟨i, hi, h⟩ := h3 <;> simp only [h, handle, hi]
  · exact .inr (.inr (.inl ⟨l, i, h1, h2, by rw [h3]⟩))
  · exact .inr (.inr (.inr ⟨l, e, h1, h2, by rw [h3]⟩))

end Sys2Proof.Machine
end

