-- ==== Sys2Proof/Tests/Slice0.lean ====
section
/-! SUPPORT. Tests of single steps with expected results from spec/95_test_vectors.md and the worked examples of the
rules, decodings of words written out from the encodings, the well-formedness smoke test, and for every statement with
hypotheses a witness that meets them. -/
namespace Sys2Proof.Tests
open Sys2Proof.Machine

/-- `(0x25, 0, {1,2,3,4}/7/0)` under `CFG_REF`, with nothing sent, offered or answered. -/
def st : State :=
  { btn := 0x25, last := ⟨1, 2, 3, 4, 0b0111, 0⟩, inflight := false, out := [], cfg := cfgRef, inbox := [],
    responses := [], draws := 0, drive := none }

/-- `(0x25, 1, {1,2,3,4}/7/0)`. -/
def stBusy : State := { st with inflight := true }

/-- The state with these offers. -/
def offered (l : List Offer) : State := { st with inbox := l }

/-- A configuration with two equal tags. -/
def brokenCfg : Cfg := { cfgRef with tagAck := 0x41 }

/-- The state an outcome goes on in. -/
def nextOf : Host.Outcome State Fault Refusal → Option State
  | .next s => some s
  | .fault _ => none
  | .refused _ => none

def bioc : Packet := ⟨0x41, 0x05, 0x02⟩
def ack : Packet := ⟨0x40, 0xAB, 0xCD⟩
def rstPkt : Packet := ⟨0x42, 0xFF, 0xFF⟩
def unk : Packet := ⟨0x43, 0x0F, 0x0F⟩
def cmdInit : HostCmd := ⟨0x00, 0, 0, 0, 0, 0, 0, false⟩
def cmdSetd : HostCmd := ⟨0x01, 5, 6, 7, 8, 0x0F, 0, false⟩
def cmdRdb : HostCmd := ⟨0x02, 0, 0, 0, 0, 0, 0, true⟩
def cmdRdbBad : HostCmd := ⟨0x02, 0, 0, 0, 0, 0, 0, false⟩
def cmdBad : HostCmd := ⟨0x03, 0, 0, 0, 0, 0, 0, true⟩

/-! ### Well-formedness: an ill-formed term for each check -/

/-- R96: a tag that names a handler is not unknown. -/
theorem test_wf_refuses_named_tag : (Instr.pktUnk 0x42 0 0).wellFormed cfgRef = false := by decide
/-- R152: a supported `op` is not unsupported. -/
theorem test_wf_refuses_supported_op : (Instr.badcmd 0x02).wellFormed cfgRef = false := by decide
theorem test_wf_takes_boundaries :
    (Instr.badcmd 0x03).wellFormed cfgRef = true ∧ (Instr.pktUnk 0x43 0 0).wellFormed cfgRef = true := by decide
/-- R9: equal tags break the contract. -/
theorem test_cfg_valid : cfgRef.Valid ∧ ¬ brokenCfg.Valid := by decide

/-! ### Decoding, one word per constructor, bytes from 95 section 2 and opcode_table.json -/

theorem test_decode_pktBioc : decode cfgRef .inbound [0x41, 0x05, 0x02] = .ok (.pktBioc 0x05 0x02) := by decide
theorem test_decode_pktReset : decode cfgRef .inbound [0x42, 0xFF, 0xFF] = .ok .pktReset := by decide
theorem test_decode_pktAck : decode cfgRef .inbound [0x40, 0xAB, 0xCD] = .ok .pktAck := by decide
theorem test_decode_pktUnk : decode cfgRef .inbound [0x43, 0x0F, 0x0E] = .ok (.pktUnk 0x43 0x0F 0x0E) := by decide
theorem test_decode_init : decode cfgRef .host [0x00, 9, 9, 9, 9, 9, 9, 1] = .ok .init := by decide
theorem test_decode_setd : decode cfgRef .host [0x01, 0x11, 0x22, 0x33, 0x44, 0xF7, 0xF0, 0] =
    .ok (.setd 0x11 0x22 0x33 0x44 0xF7 0xF0) := by decide
theorem test_decode_rdb : decode cfgRef .host [0x02, 0, 0, 0, 0, 0, 0, 1] = .ok (.rdb true) ∧
    decode cfgRef .host [0x02, 0, 0, 0, 0, 0, 0, 0] = .ok (.rdb false) := by decide
theorem test_decode_badcmd : decode cfgRef .host [0xFF, 0, 0, 0, 0, 0, 0, 0] = .ok (.badcmd 0xFF) := by decide
theorem test_decode_biocOn : decode cfgRef .outbound [0xC3] = .ok .biocOn := by decide
theorem test_decode_ledUsr : decode cfgRef .outbound [0xC7] = .ok .ledUsr := by decide
theorem test_decode_ledSet3 : decode cfgRef .outbound [0xC6, 0x07, 0x06, 0xCB, 0x8F] =
    .ok (.ledSet3 0x06 0xCB 0x8F) := by decide
theorem test_decode_ledSet4 : decode cfgRef .outbound [0xC6, 0x0F, 0x06, 0xCB, 0x8F, 0x2E] =
    .ok (.ledSet4 0x06 0xCB 0x8F 0x2E) := by decide
theorem test_decode_rejects_by_name :
    decode cfgRef .inbound [0x41, 0x05] = .error .packetLength ∧
    decode cfgRef .host [0x01] = .error .commandLength ∧
    decode cfgRef .host [0x02, 0, 0, 0, 0, 0, 0, 2] = .error .dstOkNotABit ∧
    decode cfgRef .outbound [0xC6, 0x07] = .error .outboundLength ∧
    decode cfgRef .outbound [0xC4] = .error .outboundCommand ∧
    decode cfgRef .outbound [0xC6, 0x0F, 0, 0, 0] = .error .outboundSelect := by decide
/-- The words of opcode_table.json (`match_cfg_ref`, `match`), one per row. -/
theorem test_table_words_packets :
    decodeTableWord 24 0x410000 = some (.pktBioc 0 0) ∧ decodeTableWord 24 0x420000 = some .pktReset ∧
    decodeTableWord 24 0x400000 = some .pktAck ∧ decodeTableWord 24 0x430000 = some (.pktUnk 0x43 0 0) := by decide
theorem test_table_words_others :
    decodeTableWord 8 0x00 = some .init ∧ decodeTableWord 8 0x01 = some (.setd 0 0 0 0 0 0) ∧
    decodeTableWord 8 0x02 = some (.rdb false) ∧ decodeTableWord 8 0x03 = some (.badcmd 0x03) ∧
    decodeTableWord 8 0xC3 = some .biocOn ∧ decodeTableWord 8 0xC7 = some .ledUsr ∧
    decodeTableWord 16 0x07C6 = some (.ledSet3 0 0 0) ∧ decodeTableWord 16 0x0FC6 = some (.ledSet4 0 0 0 0) := by
  decide
/-- The first step after reset runs the placed word. -/
theorem test_first_step_after_reset :
    step (State.reset.withFetchWord 24 0x420000) = exec .pktReset State.reset ∧
    step (State.reset.withFetchWord 8 0x01) = exec (.setd 0 0 0 0 0 0) State.reset ∧
    step (State.reset.withFetchWord 16 0x07C6) = exec (.ledSet3 0 0 0) State.reset := ⟨rfl, rfl, rfl⟩

/-! ### Operands -/

/-- 95 section 2.1. -/
theorem test_compose : compose 0xA5 0x5A = 0xA5 ∧ compose 0x3C 0x06 = 0x2C ∧ compose 0x01 0x0B = 0xB1 ∧
    compose 0x00 0x0F = 0xB8 ∧ compose 0xFF 0xFF = 0xBF ∧ compose 0x07 0x04 = 0x0F := by decide
/-- 95 section 2.3, rows 3, 5 and 9. -/
theorem test_encode_points :
    encodeRequest cfgRef ⟨1, 2, 3, 4, 0b1111, 0b0101⟩ = [0xC6, 0x0F, 0x16, 0xCB, 0x9F, 0x2E] ∧
    encodeRequest cfgRef ⟨1, 2, 3, 4, 0b0111, 0b1111⟩ = [0xC6, 0x07, 0x16, 0xDB, 0x9F] ∧
    encodeRequest cfgRef ⟨0xA, 0xB, 0xC, 0xD, 0b1111, 0b0010⟩ = [0xC6, 0x0F, 0xEE, 0x7D, 0xE1, 0x4F] := by decide
/-- 95 section 2.3, rows 6, 11 and 12. -/
theorem test_encode_enable_masks :
    encodeRequest cfgRef ⟨1, 2, 3, 4, 0b0000, 0⟩ = [0xC6, 0x0F, 0x06, 0xCB, 0x8F, 0x2E] ∧
    encodeRequest cfgRef ⟨0xF, 0xE, 9, 8, 0b0111, 0b0001⟩ = [0xC6, 0x07, 0xF8, 0xE9, 0xAE] ∧
    encodeRequest cfgRef ⟨5, 5, 5, 5, 0b1011, 0b1010⟩ = [0xC6, 0x0F, 0xAD, 0xBD, 0xAD, 0xBD] := by decide

/-! ### One step each, 95 sections 2.2 to 2.7 -/

theorem test_pktBioc_overwrites :
    (nextOf (exec (.pktBioc 0x00 0x08) st)).map (fun t => (t.btn, t.inflight)) = some (0x80, false) := by decide
theorem test_pktReset_replays :
    (nextOf (exec .pktReset stBusy)).map (fun t => (t.btn, t.inflight, t.out)) =
      some (0x25, false, [[0xC3], [0xC7], [0xC6, 0x07, 0x06, 0xCB, 0x8F]]) := by decide
theorem test_pktAck_opens :
    (nextOf (exec .pktAck stBusy)).map (fun t => (t.btn, t.inflight, t.out)) = some (0x25, false, []) := by decide
theorem test_pktUnk_nothing : nextOf (exec (.pktUnk 0x43 0x0F 0x0F) stBusy) = some stBusy := by decide
theorem test_init_keeps_flag :
    (nextOf (exec .init stBusy)).map (fun t => (t.btn, t.inflight, t.out, t.responses)) =
      some (0x25, true, [[0xC3], [0xC7]], [⟨.ok, 0⟩]) := by decide
theorem test_setd_reduces_operands :
    (nextOf (exec (.setd 0x11 0x22 0x33 0x44 0xF7 0xF0) st)).map (fun t => (t.inflight, t.last, t.out)) =
      some (true, ⟨1, 2, 3, 4, 0b0111, 0⟩, [[0xC6, 0x07, 0x06, 0xCB, 0x8F]]) := by decide
theorem test_setd_busy :
    nextOf (exec (.setd 5 6 7 8 0x0F 0) stBusy) = some { stBusy with responses := [⟨.busy, 0⟩] } := by decide
theorem test_rdb_reads_and_clears :
    (nextOf (exec (.rdb true) stBusy)).map (fun t => (t.btn, t.inflight, t.responses)) =
      some (0x00, true, [⟨.ok, 0x25⟩]) := by decide
theorem test_rdb_bad_keeps :
    nextOf (exec (.rdb false) st) = some { st with responses := [⟨.invalid, 0⟩] } := by decide
theorem test_badcmd_invalid :
    nextOf (exec (.badcmd 0x7F) st) = some { st with responses := [⟨.invalid, 0⟩] } := by decide
theorem test_biocOn_sends : (nextOf (exec .biocOn st)).map State.out = some [[0xC3]] := by decide
theorem test_ledUsr_sends : (nextOf (exec .ledUsr st)).map State.out = some [[0xC7]] := by decide
theorem test_ledSet3_sends :
    (nextOf (exec (.ledSet3 0x06 0xCB 0x8F) st)).map State.out = some [[0xC6, 0x07, 0x06, 0xCB, 0x8F]] := by decide
theorem test_ledSet4_sends :
    (nextOf (exec (.ledSet4 0x06 0xCB 0x8F 0x2E) st)).map State.out =
      some [[0xC6, 0x0F, 0x06, 0xCB, 0x8F, 0x2E]] := by decide
theorem test_rst_event :
    (nextOf (handle .rst { stBusy with out := [[0xC3]] })).map (fun t => (t.btn, t.inflight, t.out)) =
      some (0x00, false, []) := by decide
theorem test_step_idle : step st = .next st := rfl

/-! ### Witnesses: for each statement with hypotheses, a case that meets them -/

theorem witness_StepRunsTheOfferedOperation :
    st.cfg.Valid ∧ st.drive = none ∧ st.inbox = [] ∧
    (offered [.one (.packet bioc), .one .rst]).inbox = .one (.packet bioc) :: [.one .rst] ∧
    (offered [.one (.command cmdSetd)]).inbox = .one (.command cmdSetd) :: [] ∧
    (offered [.one .rst]).inbox = .one .rst :: [] ∧
    decode ({ st with drive := some [0xC3] } : State).cfg .outbound [0xC3] = .ok .biocOn := by decide

theorem witness_PlacedBytesRunAsDecoded :
    st.cfg.Valid ∧ decode st.cfg .inbound [0x42, 0, 0] = .ok .pktReset ∧
    decode st.cfg .host [0x02, 0, 0, 0, 0, 0, 0, 1] = .ok (.rdb true) ∧
    decode st.cfg .outbound [0xC6, 0x07, 0, 0, 0] = .ok (.ledSet3 0 0 0) ∧
    st.cfg = cfgRef ∧ decodeTableWord 24 0x400000 = some .pktAck ∧ decodeTableWord 8 0xC7 = some .ledUsr := by decide

theorem witness_StepStopsOnlyOutsideTheContract :
    (st.cfg.Valid ∧ st.drive = none) ∧ ¬ ({ st with cfg := brokenCfg } : State).cfg.Valid ∧
    decode ({ st with drive := some [0xC4] } : State).cfg .outbound [0xC4] = .error .outboundCommand ∧
    nextOf (step { st with drive := some [0xC4] }) = none := by decide

theorem witness_step_refused : step { st with drive := some [0xC4] } = .refused .driveNotACommand := rfl

theorem witness_SimultaneousOfferTakesOne :
    (offered [.both ack cmdSetd]).cfg.Valid ∧ (offered [.both ack cmdSetd]).drive = none ∧
    (offered [.both ack cmdSetd]).inbox = .both ack cmdSetd :: [] := by decide

theorem witness_SimultaneousEventsInEitherOrder :
    (offered [.both rstPkt cmdSetd, .one .rst]).cfg.Valid ∧ (offered [.both rstPkt cmdSetd, .one .rst]).drive = none ∧
    (offered [.both rstPkt cmdSetd, .one .rst]).inbox = .both rstPkt cmdSetd :: [.one .rst] := by decide

theorem witness_OrderOfSimultaneousEventsShows :
    stBusy.cfg.Valid ∧ stBusy.inflight = true ∧ ack.b0 = stBusy.cfg.tagAck ∧ rstPkt.b0 = stBusy.cfg.tagReset ∧
    cmdSetd.op = 0x01#8 ∧ bioc.b0 = st.cfg.tagBiocEvent ∧ cmdRdb.op = 0x02#8 ∧ cmdRdb.dstOk = true ∧
    st.inflight = false ∧ rstPkt.b0 = st.cfg.tagReset := by decide

theorem witness_MachineRunIsEventRun :
    (offered (offersOf [.packet bioc, .command cmdRdb, .rst])).cfg.Valid ∧
    (offered (offersOf [.packet bioc, .command cmdRdb, .rst])).drive = none ∧
    (offered (offersOf [.packet bioc, .command cmdRdb, .rst])).inbox =
      offersOf [.packet bioc, .command cmdRdb, .rst] := by decide

theorem witness_ResetValuesAndStableLast :
    (∃ t, runFromReset [.packet rstPkt, .command cmdSetd] st = .next t ∧ t.last = ⟨5, 6, 7, 8, 0x0F, 0⟩) ∧
    (∀ e ∈ [Event.packet rstPkt, .command cmdSetd], e ≠ .rst) := ⟨⟨_, rfl, rfl⟩, by decide⟩

theorem witness_ResetPacket : cfgRef.Valid := by decide

theorem witness_AcknowledgmentPacket :
    cfgRef.Valid ∧ stBusy.cfg.Valid ∧ ack.b0 = stBusy.cfg.tagAck ∧ cmdSetd.op = 0x01#8 := by decide

theorem witness_UnknownPacket :
    unk.b0 ≠ cfgRef.tagBiocEvent ∧ unk.b0 ≠ cfgRef.tagReset ∧ unk.b0 ≠ cfgRef.tagAck := by decide

theorem witness_TagByteSelectsOperation :
    cfgRef.Valid ∧ bioc.b0 = cfgRef.tagBiocEvent ∧ rstPkt.b0 = cfgRef.tagReset ∧ ack.b0 = cfgRef.tagAck ∧
    cfgRef.namedTag unk.b0 = false ∧ cfgRef.namedTag 0x3F = false := by decide

theorem witness_UnusedPayloadHasNoEffect :
    rstPkt.b0 ≠ st.cfg.tagBiocEvent ∧ bioc.b0 = st.cfg.tagBiocEvent ∧ 0xA5#8 &&& 0x0F#8 = 0x15#8 &&& 0x0F#8 := by decide

theorem witness_PacketFrame :
    (isPacket .pktReset = true ∧ exec .pktReset stBusy = .next { stBusy with
      out := [[0xC3], [0xC7], [0xC6, 0x07, 0x06, 0xCB, 0x8F]], inflight := false }) ∧
    (isPacket (.pktBioc 5 2) = true ∧ exec (.pktBioc 5 2) stBusy = .next { stBusy with btn := 0x25 }) ∧
    (isPacket .pktAck = true ∧ exec .pktAck stBusy = .next st) ∧
    (isPacket (.pktUnk 0x43 0 0) = true ∧ exec (.pktUnk 0x43 0 0) st = .next st) :=
  ⟨⟨rfl, rfl⟩, ⟨rfl, rfl⟩, ⟨rfl, rfl⟩, ⟨rfl, rfl⟩⟩

theorem witness_ComposeProperties : 0x05#8 &&& 0x0D#8 = 0x05#8 ∧ 0x02#8 &&& 0x03#8 = 0x02#8 := by decide

theorem witness_SetdOperandsAreReduced : st.inflight = false := rfl

theorem witness_EncodeTwoForms :
    (⟨1, 2, 3, 4, 0b0111, 0⟩ : DisplayRequest).en = 0b0111#4 ∧ (⟨1, 2, 3, 4, 0, 0⟩ : DisplayRequest).en ≠ 0b0111#4 := by
  decide

theorem witness_EncodeCornerCases :
    cfgRef.Valid ∧ (⟨5, 5, 5, 5, 0b1111, 0b0000⟩ : DisplayRequest).en ≠ 0b0111#4 ∧ 0b1110#4 ≠ 0b0111#4 ∧
    (⟨5, 5, 5, 5, 0b0111, 0b0000⟩ : DisplayRequest).en = 0b0111#4 ∧
    (∀ i, i < 3 → (0b1000#4).getLsbD i = (0b0000#4).getLsbD i) ∧
    (⟨5, 5, 5, 5, 0, 0b1111⟩ : DisplayRequest).d0 = (⟨5, 5, 5, 5, 0, 0b1111⟩ : DisplayRequest).d3 ∧
    (0b1111#4).getLsbD 0 = (0b1111#4).getLsbD 3 := by decide

theorem witness_HostOpcodeMap :
    cmdInit.op = 0x00#8 ∧ cmdSetd.op = 0x01#8 ∧ cmdRdb.op = 0x02#8 ∧ 0x03 ≤ cmdBad.op.toNat ∧
    0x03 ≤ (0xFF#8).toNat := by decide

theorem witness_InitCommand : cmdInit.op = 0x00#8 := rfl

theorem witness_SetDisplayCommand : stBusy.inflight = true ∧ st.inflight = false ∧ cmdSetd.op = 0x01#8 := by decide

theorem witness_ReadButtonsCommand : cmdRdb.op = 0x02#8 := rfl

theorem witness_UnsupportedCommand : 0x03 ≤ cmdBad.op.toNat := by decide

theorem witness_ErrorsChangeNothing :
    (exec (.setd 0 0 0 0 0 0) stBusy = .next { stBusy with responses := [⟨.busy, 0⟩] } ∧
      ({ stBusy with responses := [⟨.busy, 0⟩] } : State).responses = stBusy.responses ++ [⟨.busy, 0⟩]) ∧
    exec (.rdb false) st = .next { st with responses := [⟨.invalid, 0⟩] } ∧
    exec .init st = .next { st with out := [[0xC3], [0xC7]], responses := [⟨.ok, 0⟩] } ∧
    (opensGate .pktAck = true ∧ exec .pktAck stBusy = .next st) :=
  ⟨⟨rfl, rfl⟩, rfl, rfl, rfl, rfl⟩

theorem witness_HostCommandFrame :
    (Instr.init.channel = .host ∧ ∃ t, exec .init st = .next t) ∧
    ((Instr.setd 0 0 0 0 0 0).channel = .host ∧ ∃ t, exec (.setd 0 0 0 0 0 0) stBusy = .next t) ∧
    ((Instr.rdb true).channel = .host ∧ ∃ t, exec (.rdb true) st = .next t) ∧
    ((Instr.badcmd 3).channel = .host ∧ ∃ t, exec (.badcmd 3) st = .next t) :=
  ⟨⟨rfl, _, rfl⟩, ⟨rfl, _, rfl⟩, ⟨rfl, _, rfl⟩, ⟨rfl, _, rfl⟩⟩

theorem witness_OutboundFrame :
    (Instr.biocOn.channel = .outbound ∧ ∃ t, exec .biocOn st = .next t) ∧
    (Instr.ledUsr.channel = .outbound ∧ ∃ t, exec .ledUsr st = .next t) ∧
    ((Instr.ledSet3 0 0 0).channel = .outbound ∧ ∃ t, exec (.ledSet3 0 0 0) st = .next t) ∧
    ((Instr.ledSet4 0 0 0 0).channel = .outbound ∧ ∃ t, exec (.ledSet4 0 0 0 0) st = .next t) :=
  ⟨⟨rfl, _, rfl⟩, ⟨rfl, _, rfl⟩, ⟨rfl, _, rfl⟩, ⟨rfl, _, rfl⟩⟩

theorem witness_DecodeEncodeRoundTrip :
    cfgRef.Valid ∧ Instr.ledUsr.wellFormed cfgRef = true ∧ cfgRef.cmdLedUsr ≠ cfgRef.cmdBiocOn ∧
    (Instr.pktUnk 0x00 0xFF 0xFF).wellFormed cfgRef = true ∧ (Instr.badcmd 0xFF).wellFormed cfgRef = true := by decide

theorem witness_DecodedBytesAreTheEncoding :
    decode cfgRef .inbound [0x00, 0xFF, 0xFF] = .ok (.pktUnk 0x00 0xFF 0xFF) ∧
    decode cfgRef .host [0x01, 1, 2, 3, 4, 5, 6, 1] = .ok (.setd 1 2 3 4 5 6) ∧ isSetd (.setd 1 2 3 4 5 6) = true ∧
    decode cfgRef .host [0x02, 9, 9, 9, 9, 9, 9, 1] = .ok (.rdb true) ∧
    decode cfgRef .host [0x02, 9, 9, 9, 9, 9, 9, 0] = .ok (.rdb false) ∧
    decode cfgRef .outbound [0xC6, 0x0F, 1, 2, 3, 4] = .ok (.ledSet4 1 2 3 4) := by decide

theorem witness_StepKeepsInvariant :
    MachineInv (offered [.one (.packet bioc)]) ∧ ∃ t, step (offered [.one (.packet bioc)]) = .next t :=
  ⟨⟨by decide, by decide, by simp [offered, st], by simp [offered, st], rfl⟩, _, rfl⟩

theorem witness_StepKeepsConfiguration :
    (∃ t, step (offered [.one .rst]) = .next t) ∧ (offered [.one .rst]).drive = none := ⟨⟨_, rfl⟩, rfl⟩

theorem witness_AccessTable :
    st.cfg.Valid ∧ (∃ t, handle .rst st = .next t) ∧ (∃ t, handle (.packet bioc) st = .next t) ∧
    (∃ t, handle (.packet rstPkt) st = .next t) ∧ (∃ t, handle (.packet ack) st = .next t) ∧
    (∃ t, handle (.packet unk) st = .next t) ∧ st.cfg.namedTag unk.b0 = false ∧
    (∃ t, handle (.command cmdInit) st = .next t) ∧ (∃ t, handle (.command cmdSetd) st = .next t) ∧
    (∃ t, handle (.command cmdSetd) stBusy = .next t) ∧ (∃ t, handle (.command cmdRdb) st = .next t) ∧
    (∃ t, handle (.command cmdBad) st = .next t) :=
  ⟨by decide, ⟨_, rfl⟩, ⟨_, rfl⟩, ⟨_, rfl⟩, ⟨_, rfl⟩, ⟨_, rfl⟩, rfl, ⟨_, rfl⟩, ⟨_, rfl⟩, ⟨_, rfl⟩, ⟨_, rfl⟩, ⟨_, rfl⟩⟩

theorem witness_InflightTransitions :
    (∃ t, handle (.command cmdSetd) st = .next t ∧ t.inflight = true ∧ st.inflight = false) ∧
    (∃ t, handle (.packet ack) stBusy = .next t ∧ t.inflight = false ∧ stBusy.inflight = true) :=
  ⟨⟨_, rfl, rfl, rfl⟩, ⟨_, rfl, rfl, rfl⟩⟩

theorem witness_RightsOfTheTwoContexts :
    (∃ t, handle (.packet bioc) st = .next t) ∧ (∃ t, handle (.command cmdRdb) stBusy = .next t) ∧
    stBusy.inflight = true ∧ st.cfg.Valid ∧ st.inflight = false := ⟨⟨_, rfl⟩, ⟨_, rfl⟩, rfl, by decide, rfl⟩

theorem witness_OutGrowsAtItsEndUnread :
    (∃ t, handle (.packet rstPkt) st = .next t) ∧ Event.packet rstPkt ≠ .rst := ⟨⟨_, rfl⟩, by decide⟩

theorem witness_IdempotentEvents :
    (isPacket (.pktBioc 5 2) = true ∧ Instr.pktBioc 5 2 ≠ .pktReset ∧ ∃ t, exec (.pktBioc 5 2) st = .next t) ∧
    (∃ t, exec .pktReset st = .next t) ∧ (∃ t, exec (.rdb true) st = .next t) ∧
    (∃ t, exec (.setd 1 2 3 4 7 0) st = .next t) :=
  ⟨⟨rfl, by decide, _, rfl⟩, ⟨_, rfl⟩, ⟨_, rfl⟩, ⟨_, rfl⟩⟩

theorem witness_ButtonBitSixNeverSet :
    ∃ t, runFromReset [.packet bioc, .command cmdInit] st = .next t ∧ t.btn = 0x25#8 := ⟨_, rfl, by decide⟩

theorem witness_ReadReturnsMostRecentMask :
    (∀ e ∈ [Event.packet ack, .command cmdSetd, .command cmdRdbBad, .packet rstPkt],
      eventWritesBtn st.cfg e = false) ∧ cmdRdb.op = 0x02#8 ∧ cmdRdb.dstOk = true := by decide

theorem witness_GateInvariant :
    (∃ t, runFromReset [.packet ack, .command cmdSetd, .packet bioc] st = .next t ∧ t.inflight = true) ∧
    (∃ t, runFromReset ([.packet bioc] ++ .command cmdSetd :: [.packet ack]) st = .next t ∧ t.inflight = false) ∧
    cmdSetd.op = 0x01#8 := ⟨⟨_, rfl, rfl⟩, ⟨_, rfl, rfl⟩, rfl⟩

theorem witness_GateStaysClosed :
    stBusy.inflight = true ∧
    ∀ e ∈ [Event.command cmdSetd, .command cmdInit, .packet bioc, .command cmdRdb],
      eventOpensGate stBusy.cfg e = false := by decide

/-- The set-display in between is rejected and only then acknowledged. -/
theorem witness_ReplayIsExact :
    (st.cfg.Valid ∧ st.inflight = false ∧ cmdSetd.op = 0x01#8 ∧ rstPkt.b0 = st.cfg.tagReset) ∧
    (∀ e ∈ [Event.command cmdSetd, .packet ack], e ≠ .rst) ∧
    ∀ pre k post v, [Event.command cmdSetd, .packet ack] = pre ++ .command k :: post → k.op = 0x01#8 →
      handleAll (.command cmdSetd :: pre) st = .next v → v.inflight = true := by
  refine ⟨by decide, by decide, fun pre k post v he _ hv => ?_⟩
  obtain _ | ⟨e, _ | ⟨f, _⟩⟩ := pre
  · cases hv; rfl
  · simp at he
  · simp at he

theorem witness_ReplayBeforeAnyRequest :
    st.cfg.Valid ∧ rstPkt.b0 = st.cfg.tagReset ∧
    ∀ e ∈ [Event.command cmdInit, .packet rstPkt], e ≠ .rst ∧ eventIsSetd st.cfg e = false := by decide

theorem witness_RegistersSeenOnlyThroughTheirOperation :
    (∀ e ∈ [Event.packet bioc, .command cmdRdbBad], eventInstr st.cfg e ≠ some (.rdb true)) ∧
    (∃ t, handleAll [.packet bioc, .command cmdRdbBad] st = .next t) ∧
    (∀ e ∈ [Event.packet rstPkt, .command cmdRdb], eventIsSetd st.cfg e = false) ∧
    (∃ t, handleAll [.packet rstPkt, .command cmdRdb] st = .next t) ∧
    (∀ e ∈ [Event.command cmdSetd, .packet ack], eventInstr st.cfg e ≠ some .pktReset) ∧
    (∃ t, handleAll [.command cmdSetd, .packet ack] st = .next t) :=
  ⟨by decide, ⟨_, rfl⟩, by decide, ⟨_, rfl⟩, by decide, ⟨_, rfl⟩⟩

/-- Offers of both kinds that leave the gate closed, a rejected set-display among them. -/
theorem witness_StepKeepsGateClosed :
    GateClosed ⟨1, 2, 3, 4, 0b0111, 0⟩ { stBusy with inbox := [.one (.command cmdSetd), .both bioc cmdInit] } ∧
    ∃ t, step { stBusy with inbox := [.one (.command cmdSetd), .both bioc cmdInit] } = .next t :=
  ⟨⟨rfl, rfl, by decide⟩, _, rfl⟩

end Sys2Proof.Tests
end

section
/-! PROOFS of the family 00_scope. What one step answers, as an equation per case: each follows from `step_cases`, where
the hypotheses leave one case only. -/
namespace Sys2Proof.Machine

theorem takeEvent_of_inbox_nil {s : State} (h : s.inbox = []) : takeEvent s = none := by
  simp [takeEvent, h]

theorem takeEvent_of_inbox_one {s : State} {e : Event} {rest : List Offer} (h : s.inbox = .one e :: rest) :
    takeEvent s = some (e, s.setInbox rest) := by
  simp [takeEvent, h]

/-- With nothing offered and nothing driven a step is idle (R31, log 10). -/
theorem step_of_takeEvent_none {s : State} (hv : s.cfg.Valid) (hd : s.drive = none) (ht : takeEvent s = none) :
    step s = .next s := by
  obtain ⟨-, -, h⟩ | ⟨_, _, -, ht', -⟩ | ⟨_, _, hd', -⟩ | ⟨_, _, hd', -⟩ := step_cases hv
  · exact h
  · simp [ht] at ht'
  · simp [hd] at hd'
  · simp [hd] at hd'

/-- A step handles the event it takes (R6, R47). -/
theorem step_of_takeEvent_some {s s' : State} {e : Event} (hv : s.cfg.Valid) (hd : s.drive = none)
    (ht : takeEvent s = some (e, s')) : step s = handle e s' := by
  obtain ⟨-, ht', -⟩ | ⟨_, _, -, ht', h⟩ | ⟨_, _, hd', -⟩ | ⟨_, _, hd', -⟩ := step_cases hv
  · simp [ht] at ht'
  · cases ht.symm.trans ht'
    exact h
  · simp [hd] at hd'
  · simp [hd] at hd'

/-- A single event at the head of the offers is the one handled, on the state without that offer (R47). -/
theorem step_of_inbox_one {s : State} {e : Event} {rest : List Offer} (hv : s.cfg.Valid) (hd : s.drive = none)
    (h : s.inbox = .one e :: rest) : step s = handle e (s.setInbox rest) :=
  step_of_takeEvent_some hv hd (takeEvent_of_inbox_one h)

/-- An outbound command on the model's own drive port is run with the port emptied (log 6). -/
theorem step_of_drive_decoded {s : State} {l : List Byte} {i : Instr} (hv : s.cfg.Valid) (hd : s.drive = some l)
    (hi : decode s.cfg .outbound l = .ok i) : step s = exec i (s.setDrive none) := by
  obtain ⟨hd', -⟩ | ⟨_, _, hd', -⟩ | ⟨_, _, hd', hi', h⟩ | ⟨_, _, hd', hi', -⟩ := step_cases hv
  · simp [hd] at hd'
  · simp [hd] at hd'
  · cases hd.symm.trans hd'
    cases hi.symm.trans hi'
    exact h
  · cases hd.symm.trans hd'
    simp [hi] at hi'

/-- Settles O1: one equation of `step` per kind of offer, for no offer, and for the drive port. -/
theorem stepRunsTheOfferedOperation : Obligations.StepRunsTheOfferedOperation :=
  ⟨fun _ _ _ => step_of_inbox_one,
    fun _ _ _ => step_of_inbox_one,
    fun _ _ => step_of_inbox_one,
    fun _ hv hd h => step_of_takeEvent_none hv hd (takeEvent_of_inbox_nil h),
    fun _ _ _ => step_of_drive_decoded⟩

end Sys2Proof.Machine
end

section
/-! PROOFS of the family 10_state, the layer of facts. What an operation does to a state, as a relation with one
constructor per branch of its meaning; each register's rule is read off it, then said of an event and of a step. -/
namespace Sys2Proof.Machine

/-- `Effect s i t`: the operation `i` takes `s` to `t`, each branch with its guard and everything it writes.
`exec_iff_effect` ties it to `exec`. -/
inductive Effect (s : State) : Instr → State → Prop
  | pktBioc (b1 b2 : Byte) : Effect s (.pktBioc b1 b2) { s with btn := compose b1 b2 }
  | pktReset : Effect s .pktReset
      { s with
        out := s.out ++ [[s.cfg.cmdBiocOn], [s.cfg.cmdLedUsr], encodeRequest s.cfg s.last], inflight := false }
  | pktAck : Effect s .pktAck { s with inflight := false }
  | pktUnk (t b1 b2 : Byte) : Effect s (.pktUnk t b1 b2) s
  | init : Effect s .init
      { s with
        out := s.out ++ [[s.cfg.cmdBiocOn], [s.cfg.cmdLedUsr]], responses := s.responses ++ [⟨.ok, 0x00⟩] }
  | setdBusy (d0 d1 d2 d3 en dp : Byte) (closed : s.inflight = true) : Effect s (.setd d0 d1 d2 d3 en dp)
      { s with responses := s.responses ++ [⟨.busy, 0x00⟩] }
  | setdAdmitted (d0 d1 d2 d3 en dp : Byte) (opened : s.inflight = false) : Effect s (.setd d0 d1 d2 d3 en dp)
      { s with
        inflight := true
        last := reduceRequest d0 d1 d2 d3 en dp
        out := s.out ++ [encodeRequest s.cfg (reduceRequest d0 d1 d2 d3 en dp)]
        responses := s.responses ++ [⟨.ok, 0x00⟩] }
  | rdbBad : Effect s (.rdb false) { s with responses := s.responses ++ [⟨.invalid, 0x00⟩] }
  | rdbGood : Effect s (.rdb true) { s with btn := 0x00, responses := s.responses ++ [⟨.ok, s.btn⟩] }
  | badcmd (op : Byte) : Effect s (.badcmd op) { s with responses := s.responses ++ [⟨.invalid, 0x00⟩] }
  | biocOn : Effect s .biocOn { s with out := s.out ++ [[s.cfg.cmdBiocOn]] }
  | ledUsr : Effect s .ledUsr { s with out := s.out ++ [[s.cfg.cmdLedUsr]] }
  | ledSet3 (p0 p1 p2 : Byte) : Effect s (.ledSet3 p0 p1 p2) { s with out := s.out ++ [ledSet3Bytes s.cfg p0 p1 p2] }
  | ledSet4 (p0 p1 p2 p3 : Byte) : Effect s (.ledSet4 p0 p1 p2 p3)
      { s with out := s.out ++ [ledSet4Bytes s.cfg p0 p1 p2 p3] }

theorem exec_of_effect {i : Instr} {s t : State} (h : Effect s i t) : exec i s = .next t := by
  cases h
  case pktReset => exact execPktReset_eq s
  case init => exact execInit_eq s
  case setdBusy hg => exact execSetd_closed _ _ _ _ _ _ s hg
  case setdAdmitted hg => exact execSetd_open _ _ _ _ _ _ s hg
  all_goals rfl

theorem exists_effect (i : Instr) (s : State) : ∃ t, Effect s i t := by
  cases i
  case setd =>
    cases hg : s.inflight
    · exact ⟨_, .setdAdmitted _ _ _ _ _ _ hg⟩
    · exact ⟨_, .setdBusy _ _ _ _ _ _ hg⟩
  case rdb dstOk =>
    cases dstOk
    · exact ⟨_, .rdbBad⟩
    · exact ⟨_, .rdbGood⟩
  all_goals exact ⟨_, by constructor⟩

theorem exec_iff_effect {i : Instr} {s t : State} : exec i s = .next t ↔ Effect s i t := by
  refine ⟨fun h => ?_, exec_of_effect⟩
  obtain ⟨u, hu⟩ := exists_effect i s
  cases (exec_of_effect hu).symm.trans h
  exact hu

/-! ### The rule of each register, over all operations -/

theorem exec_btn_cases {i : Instr} {s t : State} (h : exec i s = .next t) :
    t.btn = s.btn ∨ (∃ b1 b2, i = .pktBioc b1 b2 ∧ t.btn = compose b1 b2) ∨ (i = .rdb true ∧ t.btn = 0x00#8) := by
  cases exec_iff_effect.mp h
  case pktBioc b1 b2 => exact .inr (.inl ⟨b1, b2, rfl, rfl⟩)
  case rdbGood => exact .inr (.inr ⟨rfl, rfl⟩)
  all_goals exact .inl rfl

theorem exec_btn_of_not_writesBtn {i : Instr} {s t : State} (hi : writesBtn i = false) (h : exec i s = .next t) :
    t.btn = s.btn := by
  obtain hb | ⟨b1, b2, rfl, -⟩ | ⟨rfl, -⟩ := exec_btn_cases h
  · exact hb
  · simp [writesBtn] at hi
  · simp [writesBtn] at hi

/-- Only an admitted set-display writes `LAST` (R25). -/
theorem exec_last_cases {i : Instr} {s t : State} (h : exec i s = .next t) :
    t.last = s.last ∨ (isSetd i = true ∧ s.inflight = false) := by
  cases exec_iff_effect.mp h
  case setdAdmitted hg => exact .inr ⟨rfl, hg⟩
  all_goals exact .inl rfl

/-- The flag is set by every set-display, admitted or not, and cleared by the operations that open the gate (R27). -/
theorem exec_inflight {i : Instr} {s t : State} (h : exec i s = .next t) :
    t.inflight = (isSetd i || (s.inflight && !opensGate i)) := by
  cases exec_iff_effect.mp h
  case setdBusy hg => exact hg
  all_goals simp [isSetd, opensGate]

/-- What an operation of an event sends: at most three requests of the known forms, whatever `OUT` held before. -/
theorem exec_appends_out {i : Instr} {s t : State} (hi : i.channel ≠ .outbound) (h : exec i s = .next t) :
    ∃ ls, t.out = s.out ++ ls ∧ ls.length ≤ 3 ∧ (∀ l ∈ ls, SendForm s.cfg l) ∧
      ∀ o, exec i { s with out := o } = .next { t with out := o ++ ls } := by
  have hinit : ∀ l ∈ [[s.cfg.cmdBiocOn], [s.cfg.cmdLedUsr]], SendForm s.cfg l := by simp [SendForm]
  have hencode : ∀ r, SendForm s.cfg (encodeRequest s.cfg r) := fun r => .inr (.inr ⟨r, rfl⟩)
  cases exec_iff_effect.mp h
  case pktReset =>
    refine ⟨_, rfl, by simp, ?_, fun o => exec_of_effect .pktReset⟩
    simpa [hencode] using hinit
  case init => exact ⟨_, rfl, by simp, hinit, fun o => exec_of_effect .init⟩
  case setdAdmitted hg =>
    exact ⟨_, rfl, by simp, by simpa using hencode _, fun o => exec_of_effect (.setdAdmitted _ _ _ _ _ _ hg)⟩
  case setdBusy hg =>
    refine ⟨[], by simp, by simp, by simp, fun o => ?_⟩
    simpa using exec_of_effect (Effect.setdBusy (s := { s with out := o }) _ _ _ _ _ _ hg)
  case biocOn | ledUsr | ledSet3 | ledSet4 => exact absurd rfl hi
  all_goals exact ⟨[], by simp, by simp, by simp, fun o => by simp only [List.append_nil]; rfl⟩

/-- An operation answers nothing, or one response whose data is 0 or the `BTN` it read (R68). -/
theorem exec_responses_cases {i : Instr} {s t : State} (h : exec i s = .next t) :
    t.responses = s.responses ∨ ∃ r, t.responses = s.responses ++ [r] ∧
      (r.data = 0x00#8 ∨ (r.status = .ok ∧ r.data = s.btn)) := by
  cases exec_iff_effect.mp h
  case rdbGood => exact .inr ⟨_, rfl, .inr ⟨rfl, rfl⟩⟩
  case init | setdBusy | setdAdmitted | rdbBad | badcmd => exact .inr ⟨_, rfl, .inl rfl⟩
  all_goals exact .inl rfl

/-! ### Which operations the channels carry -/

theorem decodePacket_channel (c : Cfg) (p : Packet) : (decodePacket c p).channel = .inbound := by
  obtain ⟨-, h⟩ | ⟨-, h⟩ | ⟨-, h⟩ | ⟨-, h⟩ := decodePacket_cases c p <;> rw [h] <;> rfl

theorem decodeCommand_channel (h : HostCmd) : (decodeCommand h).channel = .host := by
  obtain ⟨-, h⟩ | ⟨-, h⟩ | ⟨-, h⟩ | ⟨-, h⟩ := decodeCommand_cases h <;> rw [h] <;> rfl

/-- No event carries an outbound command (R65). -/
theorem eventInstr_channel_ne_outbound {c : Cfg} {e : Event} {i : Instr} (h : eventInstr c e = some i) :
    i.channel ≠ .outbound := by
  cases e <;> cases h
  · simp [decodePacket_channel]
  · simp [decodeCommand_channel]

theorem decodeOutbound_channel {c : Cfg} {l : List Byte} {i : Instr} (h : decodeOutbound c l = .ok i) :
    i.channel = .outbound := by
  unfold decodeOutbound at h
  repeat' split at h
  all_goals cases h
  all_goals rfl

/-- Only packets open the gate. -/
theorem opensGate_of_channel_ne_inbound {i : Instr} (h : i.channel ≠ .inbound) : opensGate i = false := by
  cases i
  case pktReset | pktAck => exact absurd rfl h
  all_goals rfl

theorem isSetd_of_opensGate {i : Instr} (h : opensGate i = true) : isSetd i = false := by
  cases i
  case pktReset | pktAck => rfl
  all_goals cases h

/-- Of the events, only a command with the set-display `op` is a set-display (R67). -/
theorem eventIsSetd_iff {c : Cfg} {e : Event} :
    eventIsSetd c e = true ↔ ∃ h : HostCmd, e = .command h ∧ h.op = 0x01#8 := by
  cases e with
  | rst => simp [eventIsSetd, eventInstr]
  | packet p =>
    obtain ⟨-, h⟩ | ⟨-, h⟩ | ⟨-, h⟩ | ⟨-, h⟩ := decodePacket_cases c p <;>
      simp [eventIsSetd, eventInstr, h, isSetd]
  | command k =>
    obtain ⟨ho, h⟩ | ⟨ho, h⟩ | ⟨ho, h⟩ | ⟨ho, h⟩ := decodeCommand_cases k <;>
      simp [eventIsSetd, eventInstr, h, isSetd, ho]

theorem eventIsSetd_of_opensGate {c : Cfg} {e : Event} (h : eventOpensGate c e = true) : eventIsSetd c e = false := by
  unfold eventOpensGate at h
  unfold eventIsSetd
  cases hi : eventInstr c e with
  | none => rfl
  | some i => exact isSetd_of_opensGate (by simpa [hi] using h)

/-! ### Decoding under each tag and each `op` -/

theorem decodePacket_of_tagBiocEvent {c : Cfg} {p : Packet} (h : p.b0 = c.tagBiocEvent) :
    decodePacket c p = .pktBioc p.b1 p.b2 := by
  simp [decodePacket, h]

theorem decodePacket_of_tagReset {c : Cfg} {p : Packet} (hv : c.Valid) (h : p.b0 = c.tagReset) :
    decodePacket c p = .pktReset := by
  obtain ⟨⟨hne, -, -⟩, -⟩ := hv
  simp [decodePacket, h, hne.symm]

theorem decodePacket_of_tagAck {c : Cfg} {p : Packet} (hv : c.Valid) (h : p.b0 = c.tagAck) :
    decodePacket c p = .pktAck := by
  obtain ⟨⟨-, hbioc, hreset⟩, -⟩ := hv
  simp [decodePacket, h, hbioc.symm, hreset.symm]

theorem decodePacket_of_not_namedTag {c : Cfg} {p : Packet} (h : c.namedTag p.b0 = false) :
    decodePacket c p = .pktUnk p.b0 p.b1 p.b2 := by
  simp only [Cfg.namedTag, Bool.or_eq_false_iff, beq_eq_false_iff_ne] at h
  obtain ⟨⟨hbioc, hreset⟩, hack⟩ := h
  simp [decodePacket, hbioc, hreset, hack]

theorem decodeCommand_of_init {h : HostCmd} (ho : h.op = 0x00#8) : decodeCommand h = .init := by
  simp [decodeCommand, ho]

theorem decodeCommand_of_setd {h : HostCmd} (ho : h.op = 0x01#8) :
    decodeCommand h = .setd h.d0 h.d1 h.d2 h.d3 h.en h.dp := by
  simp [decodeCommand, ho]

theorem decodeCommand_of_rdb {h : HostCmd} (ho : h.op = 0x02#8) : decodeCommand h = .rdb h.dstOk := by
  simp [decodeCommand, ho]

theorem decodeCommand_of_unsupported {h : HostCmd} (ho : 0x03 ≤ h.op.toNat) : decodeCommand h = .badcmd h.op := by
  obtain ⟨h0, -⟩ | ⟨h1, -⟩ | ⟨h2, -⟩ | ⟨-, hd⟩ := decodeCommand_cases h
  · simp [h0] at ho
  · simp [h1] at ho
  · simp [h2] at ho
  · exact hd

/-! ### One event -/

/-- What the handling of an event went through: the hardware reset, or the operation it decodes to. -/
theorem handle_next_cases {e : Event} {s t : State} (h : handle e s = .next t) :
    (e = .rst ∧ t = hardReset s) ∨ ∃ i, eventInstr s.cfg e = some i ∧ exec i s = .next t := by
  obtain ⟨rfl, he⟩ | ⟨p, rfl, he⟩ | ⟨k, rfl, he⟩ := handle_cases e s
  · cases he.symm.trans h
    exact .inl ⟨rfl, rfl⟩
  · exact .inr ⟨_, rfl, he ▸ h⟩
  · exact .inr ⟨_, rfl, he ▸ h⟩

theorem handle_eq_exec {e : Event} {s : State} {i : Instr} (h : eventInstr s.cfg e = some i) :
    handle e s = exec i s := by
  simp [handle, h]

theorem handle_drive {e : Event} {s t : State} (h : handle e s = .next t) : t.drive = s.drive := by
  obtain ⟨-, rfl⟩ | ⟨i, -, hx⟩ := handle_next_cases h
  · rfl
  · obtain ⟨-, -, -, hdrive⟩ := exec_keeps_model_fields hx
    exact hdrive

theorem handle_completes (e : Event) (s : State) : ∃ t, handle e s = .next t := by
  obtain ⟨-, h⟩ | ⟨_, -, h⟩ | ⟨_, -, h⟩ := handle_cases e s
  · exact ⟨_, h⟩
  · exact h ▸ exec_completes _ s
  · exact h ▸ exec_completes _ s

theorem handleAll_completes (es : List Event) (s : State) : ∃ t, handleAll es s = .next t := by
  induction es generalizing s with
  | nil => exact ⟨s, rfl⟩
  | cons e es ih =>
    obtain ⟨t, ht⟩ := handle_completes e s
    obtain ⟨u, hu⟩ := ih t
    exact ⟨u, (handleAll_cons e es s u).mpr ⟨t, ht, hu⟩⟩

theorem handle_last_cases {e : Event} {s t : State} (he : e ≠ .rst) (h : handle e s = .next t) :
    t.last = s.last ∨ ∃ k : HostCmd, e = .command k ∧ k.op = 0x01#8 ∧ s.inflight = false := by
  obtain ⟨hr, -⟩ | ⟨i, hi, hx⟩ := handle_next_cases h
  · exact absurd hr he
  obtain hl | ⟨hset, hg⟩ := exec_last_cases hx
  · exact .inl hl
  · obtain ⟨k, hk, ho⟩ := eventIsSetd_iff.mp (show eventIsSetd s.cfg e = true by simp [eventIsSetd, hi, hset])
    exact .inr ⟨k, hk, ho, hg⟩

theorem handle_inflight {e : Event} {s t : State} (h : handle e s = .next t) :
    t.inflight = (eventIsSetd s.cfg e || (s.inflight && !eventOpensGate s.cfg e)) := by
  obtain ⟨rfl, rfl⟩ | ⟨i, hi, hx⟩ := handle_next_cases h
  · simp [eventIsSetd, eventOpensGate, eventInstr]
  · simpa [eventIsSetd, eventOpensGate, hi] using exec_inflight hx

theorem handle_btn_of_not_eventWritesBtn {e : Event} {s t : State} (he : eventWritesBtn s.cfg e = false)
    (h : handle e s = .next t) : t.btn = s.btn := by
  obtain ⟨rfl, -⟩ | ⟨i, hi, hx⟩ := handle_next_cases h
  · simp [eventWritesBtn, eventInstr] at he
  · exact exec_btn_of_not_writesBtn (by simpa [eventWritesBtn, hi] using he) hx

/-! ### One step -/

/-- A step that answers a next state was idle, handled an event, or ran a driven command (log 6). -/
theorem step_next_cases {s t : State} (h : step s = .next t) :
    t = s ∨
    (∃ e s', takeEvent s = some (e, s') ∧ handle e s' = .next t) ∨
    (∃ l i, s.drive = some l ∧ i.channel = .outbound ∧ exec i (s.setDrive none) = .next t) := by
  by_cases hv : s.cfg.Valid
  · obtain ⟨-, -, hs⟩ | ⟨e, s', -, ht, hs⟩ | ⟨l, i, hd, hi, hs⟩ | ⟨_, _, -, -, hs⟩ := step_cases hv
    · cases hs.symm.trans h
      exact .inl rfl
    · exact .inr (.inl ⟨e, s', ht, hs ▸ h⟩)
    · exact .inr (.inr ⟨l, i, hd, decodeOutbound_channel hi, hs ▸ h⟩)
    · cases hs.symm.trans h
  · simp [step, if_neg hv] at h

theorem takeEvent_cfg {s s' : State} {e : Event} (h : takeEvent s = some (e, s')) : s'.cfg = s.cfg := by
  rw [takeEvent_keeps h]

theorem takeEvent_last {s s' : State} {e : Event} (h : takeEvent s = some (e, s')) : s'.last = s.last := by
  rw [takeEvent_keeps h]

theorem takeEvent_inflight {s s' : State} {e : Event} (h : takeEvent s = some (e, s')) : s'.inflight = s.inflight := by
  rw [takeEvent_keeps h]

theorem takeEvent_drive {s s' : State} {e : Event} (h : takeEvent s = some (e, s')) : s'.drive = s.drive := by
  rw [takeEvent_keeps h]

end Sys2Proof.Machine
end

section
/-! PROOFS of the family 10_state, the machine's invariant: O39, O40 and, of one register, O47. -/
namespace Sys2Proof.Machine

/-- Bit 6 is in no image of `Compose` (R93). -/
theorem compose_and_bit6 (b1 b2 : Byte) : compose b1 b2 &&& 0x40#8 = 0x00#8 := by
  simp [compose, actionMask, clusterMask, clusterShift, leftSrc, leftPos, downSrc, downPos,
    BitVec.and_or_distrib_right, BitVec.shiftLeft_and_distrib, BitVec.and_assoc]

theorem toNat_le_of_and_bit6 : ∀ v : Byte, v &&& 0x40#8 = 0x00#8 → v.toNat ≤ 0xBF := by decide

theorem hardReset_btn_bit6 (s : State) : (hardReset s).btn &&& 0x40#8 = 0x00#8 := by simp

theorem exec_keeps_btn_bit6 {i : Instr} {s t : State} (hs : s.btn &&& 0x40#8 = 0x00#8) (h : exec i s = .next t) :
    t.btn &&& 0x40#8 = 0x00#8 := by
  obtain hb | ⟨b1, b2, -, hb⟩ | ⟨-, hb⟩ := exec_btn_cases h <;> rw [hb]
  · exact hs
  · exact compose_and_bit6 b1 b2
  · rfl

theorem handle_keeps_btn_bit6 {e : Event} {s t : State} (hs : s.btn &&& 0x40#8 = 0x00#8)
    (h : handle e s = .next t) : t.btn &&& 0x40#8 = 0x00#8 := by
  obtain ⟨-, rfl⟩ | ⟨i, -, hx⟩ := handle_next_cases h
  · exact hardReset_btn_bit6 s
  · exact exec_keeps_btn_bit6 hs hx

/-- An operation answers only the known responses as long as `BTN[6] = 0`: the data of a good read is `BTN`. -/
theorem exec_keeps_responseForms {i : Instr} {s t : State} (hb : s.btn &&& 0x40#8 = 0x00#8)
    (hs : ∀ r ∈ s.responses, ResponseForm r) (h : exec i s = .next t) : ∀ r ∈ t.responses, ResponseForm r := by
  obtain ht | ⟨r, ht, hr⟩ := exec_responses_cases h
  · exact ht ▸ hs
  · have hform : ResponseForm r := by
      obtain hd | ⟨hok, hd⟩ := hr
      · simp [ResponseForm, hd]
      · simp [ResponseForm, hd, hok, hb]
    intro q hq
    rw [ht, List.mem_append, List.mem_singleton] at hq
    obtain hq | rfl := hq
    · exact hs q hq
    · exact hform

theorem exec_keeps_outForms {i : Instr} {s t : State} (hi : i.channel ≠ .outbound)
    (hs : ∀ l ∈ s.out, SendForm s.cfg l) (h : exec i s = .next t) : ∀ l ∈ t.out, SendForm s.cfg l := by
  obtain ⟨ls, hout, -, hforms, -⟩ := exec_appends_out hi h
  intro l hl
  rw [hout, List.mem_append] at hl
  exact hl.elim (hs l) (hforms l)

theorem exec_keeps_machineInv {i : Instr} {s t : State} (hi : i.channel ≠ .outbound) (hs : MachineInv s)
    (h : exec i s = .next t) : MachineInv t := by
  obtain ⟨hcfg, -, -, hdrive⟩ := exec_keeps_model_fields h
  exact {
    cfgValid := hcfg ▸ hs.cfgValid
    btnBit6 := exec_keeps_btn_bit6 hs.btnBit6 h
    outForms := hcfg ▸ exec_keeps_outForms hi hs.outForms h
    responseForms := exec_keeps_responseForms hs.btnBit6 hs.responseForms h
    driveEmpty := hdrive.trans hs.driveEmpty }

theorem hardReset_keeps_machineInv {s : State} (hs : MachineInv s) : MachineInv (hardReset s) where
  cfgValid := hs.cfgValid
  btnBit6 := hardReset_btn_bit6 s
  outForms := by simp
  responseForms := by simp
  driveEmpty := hs.driveEmpty

theorem handle_keeps_machineInv {e : Event} {s t : State} (hs : MachineInv s) (h : handle e s = .next t) :
    MachineInv t := by
  obtain ⟨-, rfl⟩ | ⟨i, hi, hx⟩ := handle_next_cases h
  · exact hardReset_keeps_machineInv hs
  · exact exec_keeps_machineInv (eventInstr_channel_ne_outbound hi) hs hx

/-- The invariant does not speak of the offers and the draw counter. -/
theorem takeEvent_keeps_machineInv {s s' : State} {e : Event} (hs : MachineInv s)
    (h : takeEvent s = some (e, s')) : MachineInv s' := by
  rw [takeEvent_keeps h]
  exact ⟨hs.cfgValid, hs.btnBit6, hs.outForms, hs.responseForms, hs.driveEmpty⟩

/-- Settles O39: an idle step changes nothing, an event keeps the invariant, and the empty drive port drives nothing. -/
theorem stepKeepsInvariant : Obligations.StepKeepsInvariant := by
  intro s t hs h
  obtain rfl | ⟨e, s', ht, hh⟩ | ⟨l, i, hd, -, -⟩ := step_next_cases h
  · exact hs
  · exact handle_keeps_machineInv (takeEvent_keeps_machineInv hs ht) hh
  · simp [hs.driveEmpty] at hd

/-- Settles O40: `OUT` and the responses are empty, and `CFG_REF` meets its constraints. -/
theorem invariantAtReset : Obligations.InvariantAtReset where
  cfgValid := show cfgRef.Valid by decide
  btnBit6 := rfl
  outForms := by simp [State.reset]
  responseForms := by simp [State.reset]
  driveEmpty := rfl

/-- Settles O47: the reset clears bit 6 and every event keeps it clear. -/
theorem buttonBitSixNeverSet : Obligations.ButtonBitSixNeverSet := by
  intro es s t h
  have hbit : t.btn &&& 0x40#8 = 0x00#8 :=
    handleAll_keeps (P := fun u => u.btn &&& 0x40#8 = 0x00#8) (fun _ _ _ _ => handle_keeps_btn_bit6)
      (hardReset_btn_bit6 s) h
  exact ⟨hbit, toNat_le_of_and_bit6 _ hbit⟩

end Sys2Proof.Machine
end

section
/-! PROOFS of the family 10_state, the gate: O54 and O43. -/
namespace Sys2Proof.Machine

theorem exec_keeps_gateClosed {r : DisplayRequest} {i : Instr} {s t : State} (hi : opensGate i = false)
    (hs : GateClosed r s) (h : exec i s = .next t) : GateClosed r t := by
  obtain ⟨hcfg, hinbox, -, -⟩ := exec_keeps_model_fields h
  refine ⟨?_, ?_, ?_⟩
  · simp [exec_inflight h, hs.closed, hi]
  · obtain hl | ⟨-, hg⟩ := exec_last_cases h
    · exact hl.trans hs.request
    · simp [hs.closed] at hg
  · rw [hcfg, hinbox]
    exact hs.unopened

theorem handle_keeps_gateClosed {r : DisplayRequest} {e : Event} {s t : State}
    (he : eventOpensGate s.cfg e = false) (hs : GateClosed r s) (h : handle e s = .next t) : GateClosed r t := by
  obtain ⟨rfl, -⟩ | ⟨i, hi, hx⟩ := handle_next_cases h
  · simp [eventOpensGate, eventInstr] at he
  · exact exec_keeps_gateClosed (by simpa [eventOpensGate, hi] using he) hs hx

/-- What is still offered was offered before, so it opens nothing either; nor does the event taken. -/
theorem takeEvent_keeps_gateClosed {r : DisplayRequest} {e : Event} {s s' : State} (hs : GateClosed r s)
    (h : takeEvent s = some (e, s')) : eventOpensGate s'.cfg e = false ∧ GateClosed r s' := by
  obtain ⟨he, hrest⟩ := takeEvent_forall (P := fun f => eventOpensGate s.cfg f = false) h hs.unopened
  rw [← takeEvent_cfg h] at he hrest
  exact ⟨he, (takeEvent_inflight h).trans hs.closed, (takeEvent_last h).trans hs.request, hrest⟩

theorem setDrive_keeps_gateClosed {r : DisplayRequest} {s : State} (d : Option (List Byte)) (hs : GateClosed r s) :
    GateClosed r (s.setDrive d) := ⟨hs.closed, hs.request, hs.unopened⟩

/-- Settles O54: no event that is offered opens the gate, and no outbound command on the drive port does. -/
theorem stepKeepsGateClosed : Obligations.StepKeepsGateClosed := by
  intro r s t hs h
  obtain rfl | ⟨e, s', ht, hh⟩ | ⟨l, i, -, hi, hx⟩ := step_next_cases h
  · exact hs
  · obtain ⟨he, hs'⟩ := takeEvent_keeps_gateClosed hs ht
    exact handle_keeps_gateClosed he hs' hh
  · exact exec_keeps_gateClosed (opensGate_of_channel_ne_inbound (by simp [hi])) (setDrive_keeps_gateClosed none hs) hx

/-- Settles O43: the flag's rule for one event, and no event both sets the flag and opens the gate. -/
theorem inflightTransitions : Obligations.InflightTransitions := by
  intro e s t h
  have hflag := handle_inflight h
  refine ⟨fun hs => by simp [hflag, hs], fun hs => ?_⟩
  cases ho : eventOpensGate s.cfg e with
  | true => simp [hflag, ho, eventIsSetd_of_opensGate ho]
  | false => simp [hflag, hs, ho]

end Sys2Proof.Machine
end

section
/-! PROOFS of the family 10_state, frames and the access table: O31, O35, O41, O42 and O45. -/
namespace Sys2Proof.Machine

/-- Of the host commands only `SETD` and `INIT` send. -/
theorem exec_out_of_host {i : Instr} {s t : State} (hi : i.channel = .host) (hset : isSetd i = false)
    (hinit : i ≠ .init) (h : exec i s = .next t) : t.out = s.out := by
  cases exec_iff_effect.mp h
  case init => exact absurd rfl hinit
  case setdBusy | setdAdmitted => cases hset
  case pktBioc | pktReset | pktAck | pktUnk | biocOn | ledUsr | ledSet3 | ledSet4 => cases hi
  all_goals rfl

/-- Settles O31, register by register. -/
theorem hostCommandFrame : Obligations.HostCommandFrame := by
  intro i s t hi h
  have hflag : t.inflight = (isSetd i || s.inflight) := by
    simpa [opensGate_of_channel_ne_inbound (i := i) (by simp [hi])] using exec_inflight h
  refine ⟨exec_keeps_model_fields h, ?_, fun hset => ⟨?_, ?_⟩, fun hg => ⟨?_, ?_⟩,
    fun hset hinit => exec_out_of_host hi hset hinit h⟩
  · obtain hb | ⟨b1, b2, rfl, -⟩ | hb := exec_btn_cases h
    · exact .inl hb
    · cases hi
    · exact .inr hb
  · exact (exec_last_cases h).resolve_right (by simp [hset])
  · simp [hflag, hset]
  · exact (exec_last_cases h).resolve_right (by simp [hg])
  · simp [hflag, hg]

/-- Settles O35: of the four outbound effects, each is the append of the operation's encoding. -/
theorem outboundFrame : Obligations.OutboundFrame := by
  intro i s t hi h
  cases exec_iff_effect.mp h
  case biocOn | ledUsr | ledSet3 | ledSet4 => exact ⟨rfl, rfl⟩
  all_goals cases hi

/-- Settles O41: neither an event nor an operation writes the two fields, and a driven command leaves the port empty. -/
theorem stepKeepsConfiguration : Obligations.StepKeepsConfiguration := by
  intro s t h
  obtain rfl | ⟨e, s', ht, hh⟩ | ⟨l, i, hd, -, hx⟩ := step_next_cases h
  · exact ⟨rfl, id⟩
  · exact ⟨(handle_cfg hh).trans (takeEvent_cfg ht), ((handle_drive hh).trans (takeEvent_drive ht)).trans⟩
  · obtain ⟨hcfg, -, -, hdrive⟩ := exec_keeps_model_fields hx
    exact ⟨hcfg, fun _ => hdrive⟩

theorem sendForm_ne_nil {c : Cfg} {l : List Byte} (h : SendForm c l) : l ≠ [] := by
  obtain rfl | rfl | ⟨r, rfl⟩ := h
  · simp
  · simp
  · unfold encodeRequest
    split <;> simp [ledSet3Bytes, ledSet4Bytes]

/-- Settles O45: an event that is no reset is an operation, which appends the same to any `OUT`. -/
theorem outGrowsAtItsEndUnread : Obligations.OutGrowsAtItsEndUnread := by
  intro e s t o he h
  obtain ⟨hr, -⟩ | ⟨i, hi, hx⟩ := handle_next_cases h
  · exact absurd hr he
  obtain ⟨ls, hout, hlen, hforms, hany⟩ := exec_appends_out (eventInstr_channel_ne_outbound hi) hx
  refine ⟨ls, hout, hlen, fun l hl => ⟨sendForm_ne_nil (hforms l hl), hforms l hl⟩, ?_⟩
  rw [handle_eq_exec (s := { s with out := o }) hi]
  exact hany o

theorem effect_of_handle_packet {p : Packet} {s t : State} {i : Instr} (hi : decodePacket s.cfg p = i)
    (h : handle (.packet p) s = .next t) : Effect s i t := by
  subst hi
  exact exec_iff_effect.mp h

theorem effect_of_handle_command {k : HostCmd} {s t : State} {i : Instr} (hi : decodeCommand k = i)
    (h : handle (.command k) s = .next t) : Effect s i t := by
  subst hi
  exact exec_iff_effect.mp h

/-- Settles O42: the rows of the hardware reset, of the packets and of the host commands, in the order of the table,
each read off the effect of the operation the event decodes to. -/
theorem accessTable : Obligations.AccessTable := by
  intro e s t hv h
  refine ⟨?_, ?_, ?_⟩
  · rintro rfl
    cases h
    exact ⟨rfl, rfl, rfl⟩
  · rintro p rfl
    refine ⟨?_, fun hp => ?_, fun hp => ?_, fun hp => ?_, fun hp => ?_⟩
    · exact (handle_last_cases (by simp) h).resolve_right (by simp)
    · cases effect_of_handle_packet (decodePacket_of_tagBiocEvent hp) h
      exact ⟨rfl, rfl, rfl⟩
    · cases effect_of_handle_packet (decodePacket_of_tagReset hv hp) h
      exact ⟨rfl, rfl, rfl⟩
    · cases effect_of_handle_packet (decodePacket_of_tagAck hv hp) h
      exact ⟨rfl, rfl, rfl⟩
    · cases effect_of_handle_packet (decodePacket_of_not_namedTag hp) h
      rfl
  · rintro k rfl
    refine ⟨fun ho => ?_, fun ho => ?_, fun ho => ?_, fun ho => ?_⟩
    · cases effect_of_handle_command (decodeCommand_of_init ho) h
      exact ⟨rfl, rfl, rfl, rfl⟩
    · cases effect_of_handle_command (decodeCommand_of_setd ho) h
      case setdBusy hg => exact ⟨rfl, hg, by simp [hg], fun _ => ⟨rfl, rfl⟩⟩
      case setdAdmitted hg => exact ⟨rfl, rfl, fun _ => ⟨rfl, rfl⟩, by simp [hg]⟩
    · have hx := effect_of_handle_command (decodeCommand_of_rdb ho) h
      generalize k.dstOk = dstOk at hx ⊢
      cases hx
      case rdbBad => exact ⟨rfl, rfl, rfl, rfl⟩
      case rdbGood => exact ⟨rfl, rfl, rfl, rfl⟩
    · cases effect_of_handle_command (decodeCommand_of_unsupported ho) h
      exact ⟨rfl, rfl, rfl, rfl⟩

end Sys2Proof.Machine
end

section
/-! PROOFS of the family 10_state, runs of events: O10 and O48. -/
namespace Sys2Proof.Machine

/-- Over a run without a reset `LAST` stays, or some set-display of the run found the gate open. -/
theorem handleAll_last_cases {es : List Event} {s t : State} (he : ∀ e ∈ es, e ≠ .rst)
    (h : handleAll es s = .next t) :
    t.last = s.last ∨ ∃ pre k post u, es = pre ++ .command k :: post ∧ k.op = 0x01#8 ∧
      handleAll pre s = .next u ∧ u.inflight = false := by
  induction es generalizing s with
  | nil => cases h; exact .inl rfl
  | cons e es ih =>
    obtain ⟨v, hv, ht⟩ := (handleAll_cons e es s t).mp h
    obtain hl | ⟨k, rfl, ho, hg⟩ := handle_last_cases (he e List.mem_cons_self) hv
    · obtain hl' | ⟨pre, k, post, u, rfl, ho, hu, hg⟩ := ih (fun f hf => he f (List.mem_cons_of_mem _ hf)) ht
      · exact .inl (hl'.trans hl)
      · exact .inr ⟨e :: pre, k, post, u, rfl, ho, (handleAll_cons e pre s u).mpr ⟨v, hv, hu⟩, hg⟩
    · exact .inr ⟨[], k, es, s, rfl, ho, rfl, hg⟩

/-- Settles O10: the reset values by definition, and `LAST` along the run from the reset. -/
theorem resetValuesAndStableLast : Obligations.ResetValuesAndStableLast :=
  ⟨⟨rfl, rfl, rfl⟩, fun _ => ⟨rfl, rfl, rfl⟩, fun _ _ _ h he => handleAll_last_cases he h⟩

theorem handleAll_btn_of_not_eventWritesBtn {es : List Event} {s t : State}
    (he : ∀ e ∈ es, eventWritesBtn s.cfg e = false) (h : handleAll es s = .next t) : t.btn = s.btn := by
  have hkeep : t.cfg = s.cfg ∧ t.btn = s.btn := by
    refine handleAll_keeps (P := fun u => u.cfg = s.cfg ∧ u.btn = s.btn) ?_ ⟨rfl, rfl⟩ h
    rintro e hmem u v ⟨hcfg, hbtn⟩ hu
    exact ⟨(handle_cfg hu).trans hcfg,
      (handle_btn_of_not_eventWritesBtn (hcfg ▸ he e hmem) hu).trans hbtn⟩
  exact hkeep.2

theorem handle_bioc (s : State) (b1 b2 : Byte) :
    handle (.packet ⟨s.cfg.tagBiocEvent, b1, b2⟩) s = .next { s with btn := compose b1 b2 } := by
  have hi : eventInstr s.cfg (.packet ⟨s.cfg.tagBiocEvent, b1, b2⟩) = some (.pktBioc b1 b2) :=
    congrArg some (decodePacket_of_tagBiocEvent rfl)
  rw [handle_eq_exec hi]
  exact exec_of_effect (.pktBioc b1 b2)

theorem handle_goodRead {k : HostCmd} (s : State) (ho : k.op = 0x02#8) (hk : k.dstOk = true) :
    handle (.command k) s = .next { s with btn := 0x00, responses := s.responses ++ [⟨.ok, s.btn⟩] } := by
  have hi : eventInstr s.cfg (.command k) = some (.rdb true) :=
    congrArg some (hk ▸ decodeCommand_of_rdb ho)
  rw [handle_eq_exec hi]
  exact exec_of_effect .rdbGood

/-- Settles O48: the packet writes the mask, the events in between keep it, the read answers and clears it. -/
theorem readReturnsMostRecentMask : Obligations.ReadReturnsMostRecentMask := by
  intro s b1 b2 es k he ho hk
  obtain ⟨u, hu⟩ := handleAll_completes es { s with btn := compose b1 b2 }
  have hmask : u.btn = compose b1 b2 := handleAll_btn_of_not_eventWritesBtn (s := { s with btn := _ }) he hu
  have hread : handleAll [.command k] u = .next { u with btn := 0x00, responses := u.responses ++ [⟨.ok, u.btn⟩] } :=
    (handleAll_cons _ _ _ _).mpr ⟨_, handle_goodRead u ho hk, rfl⟩
  have hrun := (handleAll_append (.packet ⟨s.cfg.tagBiocEvent, b1, b2⟩ :: es) [.command k] s _).mpr
    ⟨u, (handleAll_cons _ _ _ _).mpr ⟨_, handle_bioc s b1 b2, hu⟩, hread⟩
  exact ⟨_, u.responses, hrun, by rw [hmask], rfl⟩

end Sys2Proof.Machine
end

section
/-! PROOFS of the family 20_memory, simultaneous offers and runs of the machine: O5, O6 and O8. A step handles
the event it takes, which does not read the offers still to come; `run_succ_of_takeEvent` says so of a run. -/
namespace Sys2Proof.Machine

theorem takeEvent_of_inbox_both_packet {s : State} {p : Packet} {h : HostCmd} {rest : List Offer}
    (hi : s.inbox = .both p h :: rest) (hf : Config.packetFirst s.draws = true) :
    takeEvent s = some (.packet p, (s.setInbox (.one (.command h) :: rest)).countDraw) := by
  simp [takeEvent, hi, hf]

theorem takeEvent_of_inbox_both_command {s : State} {p : Packet} {h : HostCmd} {rest : List Offer}
    (hi : s.inbox = .both p h :: rest) (hf : Config.packetFirst s.draws = false) :
    takeEvent s = some (.command h, (s.setInbox (.one (.packet p) :: rest)).countDraw) := by
  simp [takeEvent, hi, hf]

/-- Settles O5: each value of the free choice names the event that is taken, and a step handles that event. -/
theorem simultaneousOfferTakesOne : Obligations.SimultaneousOfferTakesOne := by
  intro s p h rest hv hd hi
  cases hf : Config.packetFirst s.draws with
  | true =>
    rw [if_pos rfl]
    exact step_of_takeEvent_some hv hd (takeEvent_of_inbox_both_packet hi hf)
  | false =>
    rw [if_neg Bool.false_ne_true]
    exact step_of_takeEvent_some hv hd (takeEvent_of_inbox_both_command hi hf)

theorem handle_inbox {e : Event} {s t : State} (h : handle e s = .next t) : t.inbox = s.inbox := by
  obtain ⟨-, rfl⟩ | ⟨i, -, hx⟩ := handle_next_cases h
  · rfl
  · obtain ⟨-, hinbox, -, -⟩ := exec_keeps_model_fields hx
    exact hinbox

/-- The offers are the environment's: no event reads them (log 3). -/
theorem handle_setInbox {e : Event} {s t : State} (l : List Offer) (h : handle e s = .next t) :
    handle e (s.setInbox l) = .next (t.setInbox l) := by
  obtain ⟨rfl, rfl⟩ | ⟨i, hi, hx⟩ := handle_next_cases h
  · rfl
  · exact (handle_eq_exec (s := s.setInbox l) hi).trans (exec_setInbox i s t l hx)

theorem handleAll_cons_of_next {e : Event} {s t : State} (es : List Event) (h : handle e s = .next t) :
    handleAll (e :: es) s = handleAll es t := by
  simp only [handleAll, h]

theorem run_succ_of_step {s t : State} (n : Nat) (h : step s = .next t) :
    Host.Core.run core (n + 1) s = Host.Core.run core n t := by
  have hstep : core.step s = .next t := h
  simp only [Host.Core.run, hstep]

/-- One step more of the machine is one event more of the event run, where `n` steps from what that event leaves are
the run of the events `es`. -/
theorem run_succ_of_takeEvent {s s' : State} {e : Event} {es : List Event} {rest : List Offer} {n : Nat}
    (hv : s.cfg.Valid) (hd : s.drive = none) (ht : takeEvent s = some (e, s'))
    (hrun : ∀ t : State, t.cfg.Valid → t.drive = none → t.inbox = s'.inbox →
      Host.Core.run core n t = handleAll es (t.setInbox rest)) :
    Host.Core.run core (n + 1) s = handleAll (e :: es) (s'.setInbox rest) := by
  obtain ⟨t, hh⟩ := handle_completes e s'
  have hcfg : t.cfg = s.cfg := (handle_cfg hh).trans (takeEvent_cfg ht)
  have hdrive : t.drive = s.drive := (handle_drive hh).trans (takeEvent_drive ht)
  rw [run_succ_of_step n ((step_of_takeEvent_some hv hd ht).trans hh),
    handleAll_cons_of_next es (handle_setInbox rest hh)]
  exact hrun t (hcfg ▸ hv) (hdrive.trans hd) (handle_inbox hh)

/-- A machine that is offered the events `es` one at a time handles them in as many steps, whatever is offered after
them (R47, log 3). -/
theorem run_of_inbox_offersOf_append (es : List Event) (rest : List Offer) {s : State} (hv : s.cfg.Valid)
    (hd : s.drive = none) (hi : s.inbox = offersOf es ++ rest) :
    Host.Core.run core es.length s = handleAll es (s.setInbox rest) := by
  induction es generalizing s with
  | nil =>
    obtain rfl : s.inbox = rest := hi
    rfl
  | cons e es ih =>
    exact run_succ_of_takeEvent (s' := s.setInbox (offersOf es ++ rest)) hv hd (takeEvent_of_inbox_one hi)
      fun _ => ih

/-- Settles O8: the run of the offered events, with nothing offered after them. -/
theorem machineRunIsEventRun : Obligations.MachineRunIsEventRun := by
  intro es s hv hd hi
  exact run_of_inbox_offersOf_append es [] hv hd (hi.trans (List.append_nil _).symm)

/-- Settles O6: the free choice names the first event, and the other, left offered alone, is a run of one event. -/
theorem simultaneousEventsInEitherOrder : Obligations.SimultaneousEventsInEitherOrder := by
  intro s p h rest hv hd hi
  cases hf : Config.packetFirst s.draws with
  | true =>
    exact .inl (run_succ_of_takeEvent hv hd (takeEvent_of_inbox_both_packet hi hf)
      fun _ => run_of_inbox_offersOf_append [.command h] rest)
  | false =>
    exact .inr (run_succ_of_takeEvent hv hd (takeEvent_of_inbox_both_command hi hf)
      fun _ => run_of_inbox_offersOf_append [.packet p] rest)

end Sys2Proof.Machine
end

section
/-! PROOFS of the family 20_memory, repeated operations: O46. What the second run does is the effect of the operation
in the state that the first one left. -/
namespace Sys2Proof.Machine

/-- A packet other than `PKT.RESET` only writes values that do not depend on the state (R45). -/
theorem exec_packet_idempotent {i : Instr} {s t : State} (hp : isPacket i = true) (hr : i ≠ .pktReset)
    (h : exec i s = .next t) : exec i t = .next t := by
  cases exec_iff_effect.mp h
  case pktBioc b1 b2 => exact exec_of_effect (.pktBioc b1 b2)
  case pktReset => exact absurd rfl hr
  case pktAck => exact exec_of_effect .pktAck
  case pktUnk tag b1 b2 => exact exec_of_effect (.pktUnk tag b1 b2)
  all_goals cases hp

/-- `PKT.RESET` keeps `LAST` and leaves the flag 0, so the second one sends the same again and nothing more. -/
theorem exec_pktReset_again {s t : State} (h : exec .pktReset s = .next t) :
    exec .pktReset t = .next { t with
      out := t.out ++ [[s.cfg.cmdBiocOn], [s.cfg.cmdLedUsr], encodeRequest s.cfg s.last] } := by
  cases exec_iff_effect.mp h
  exact exec_of_effect .pktReset

/-- A good read answers `BTN` and clears it, so the next one answers 0 (R45, R150). -/
theorem exec_goodRead_again {s t : State} (h : exec (.rdb true) s = .next t) :
    t.responses = s.responses ++ [⟨.ok, s.btn⟩] ∧
      exec (.rdb true) t = .next { t with responses := t.responses ++ [⟨.ok, 0x00⟩] } := by
  cases exec_iff_effect.mp h
  exact ⟨rfl, exec_of_effect .rdbGood⟩

/-- Admitted or not, a set-display leaves the gate closed, so the next one is Busy (R45, R140). -/
theorem exec_setd_again {s t : State} {d0 d1 d2 d3 en dp : Byte}
    (h : exec (.setd d0 d1 d2 d3 en dp) s = .next t) :
    exec (.setd d0 d1 d2 d3 en dp) t = .next { t with responses := t.responses ++ [⟨.busy, 0x00⟩] } := by
  have hclosed : t.inflight = true := by simp [exec_inflight h, isSetd]
  exact exec_of_effect (.setdBusy _ _ _ _ _ _ hclosed)

/-- Settles O46, sentence by sentence of R45. -/
theorem idempotentEvents : Obligations.IdempotentEvents :=
  ⟨fun _ _ _ => exec_packet_idempotent,
    fun _ _ => exec_pktReset_again,
    fun _ => ⟨_, exec_of_effect .init, rfl, rfl, rfl, rfl⟩,
    fun _ _ => exec_goodRead_again,
    fun _ _ _ _ _ _ _ _ => exec_setd_again⟩

end Sys2Proof.Machine
end

section
/-! PROOFS of the family 30_encoding, the layer of facts about the decoder: the guards of its rows, its three channels,
and what it reads, as a relation with one constructor per row of the opcode table. -/
namespace Sys2Proof

theorem HostCmd.ofBytes_bytes (k : HostCmd) : HostCmd.ofBytes k.bytes = .ok k := by
  obtain ⟨op, d0, d1, d2, d3, en, dp, dstOk⟩ := k
  cases dstOk <;> rfl

theorem HostCmd.eq_bytes_of_ofBytes {l : List Byte} {k : HostCmd} (h : HostCmd.ofBytes l = .ok k) : l = k.bytes := by
  unfold HostCmd.ofBytes at h
  split at h
  · split_ifs at h with h0 h1
    · subst h0; cases h; rfl
    · subst h1; cases h; rfl
  · cases h

theorem supportedOp_eq_false_iff {op : Byte} :
    supportedOp op = false ↔ op ≠ 0x00#8 ∧ op ≠ 0x01#8 ∧ op ≠ 0x02#8 := by
  simp only [supportedOp, Bool.or_eq_false_iff, beq_eq_false_iff_ne, and_assoc]

theorem three_le_toNat_iff {op : Byte} : 0x03 ≤ op.toNat ↔ op ≠ 0x00#8 ∧ op ≠ 0x01#8 ∧ op ≠ 0x02#8 := by
  bv_omega

theorem Cfg.namedTag_eq_false_iff {c : Cfg} {t : Byte} :
    c.namedTag t = false ↔ t ≠ c.tagBiocEvent ∧ t ≠ c.tagReset ∧ t ≠ c.tagAck := by
  simp only [Cfg.namedTag, Bool.or_eq_false_iff, beq_eq_false_iff_ne, and_assoc]

theorem decode_packetBytes {c : Cfg} {p : Packet} {i : Instr} (h : decodePacket c p = i) :
    decode c .inbound [p.b0, p.b1, p.b2] = .ok i :=
  congrArg Except.ok h

theorem decode_commandBytes {c : Cfg} {k : HostCmd} {i : Instr} (h : decodeCommand k = i) :
    decode c .host k.bytes = .ok i := by
  simp only [decode, HostCmd.ofBytes_bytes, h]

/-- Bytes that decode are those of a packet, of a host command record or of an outbound command. -/
theorem decode_ok_cases {c : Cfg} {ch : Channel} {l : List Byte} {i : Instr} (h : decode c ch l = .ok i) :
    (∃ p : Packet, ch = .inbound ∧ l = [p.b0, p.b1, p.b2] ∧ decodePacket c p = i) ∨
    (∃ k : HostCmd, ch = .host ∧ l = k.bytes ∧ decodeCommand k = i) ∨
    (ch = .outbound ∧ decodeOutbound c l = .ok i) := by
  unfold decode at h
  split at h
  · next b0 b1 b2 => cases h; exact .inl ⟨⟨b0, b1, b2⟩, rfl, rfl, rfl⟩
  · cases h
  · split at h
    · next k hk => cases h; exact .inr (.inl ⟨k, rfl, HostCmd.eq_bytes_of_ofBytes hk, rfl⟩)
    · cases h
  · exact .inr (.inr ⟨rfl, h⟩)

/-- `Reads c ch l i`: the bytes `l` of the channel `ch` stand for the operation `i`, each row with its guard and with
the bytes that the block ignores left free. `decode_iff_reads` ties it to `decode`. -/
inductive Reads (c : Cfg) : Channel → List Byte → Instr → Prop
  | pktBioc (b1 b2 : Byte) : Reads c .inbound [c.tagBiocEvent, b1, b2] (.pktBioc b1 b2)
  | pktReset (b1 b2 : Byte) (notBioc : c.tagReset ≠ c.tagBiocEvent) :
      Reads c .inbound [c.tagReset, b1, b2] .pktReset
  | pktAck (b1 b2 : Byte) (notBioc : c.tagAck ≠ c.tagBiocEvent) (notReset : c.tagAck ≠ c.tagReset) :
      Reads c .inbound [c.tagAck, b1, b2] .pktAck
  | pktUnk (t b1 b2 : Byte) (unnamed : c.namedTag t = false) : Reads c .inbound [t, b1, b2] (.pktUnk t b1 b2)
  | init (d0 d1 d2 d3 en dp : Byte) (dstOk : Bool) :
      Reads c .host (HostCmd.bytes ⟨0x00, d0, d1, d2, d3, en, dp, dstOk⟩) .init
  | setd (d0 d1 d2 d3 en dp : Byte) (dstOk : Bool) :
      Reads c .host (HostCmd.bytes ⟨0x01, d0, d1, d2, d3, en, dp, dstOk⟩) (.setd d0 d1 d2 d3 en dp)
  | rdb (d0 d1 d2 d3 en dp : Byte) (dstOk : Bool) :
      Reads c .host (HostCmd.bytes ⟨0x02, d0, d1, d2, d3, en, dp, dstOk⟩) (.rdb dstOk)
  | badcmd (op d0 d1 d2 d3 en dp : Byte) (dstOk : Bool) (unsupported : supportedOp op = false) :
      Reads c .host (HostCmd.bytes ⟨op, d0, d1, d2, d3, en, dp, dstOk⟩) (.badcmd op)
  | biocOn : Reads c .outbound [c.cmdBiocOn] .biocOn
  | ledUsr (notBiocOn : c.cmdLedUsr ≠ c.cmdBiocOn) : Reads c .outbound [c.cmdLedUsr] .ledUsr
  | ledSet3 (p0 p1 p2 : Byte) : Reads c .outbound (ledSet3Bytes c p0 p1 p2) (.ledSet3 p0 p1 p2)
  | ledSet4 (p0 p1 p2 p3 : Byte) : Reads c .outbound (ledSet4Bytes c p0 p1 p2 p3) (.ledSet4 p0 p1 p2 p3)

theorem reads_decodePacket (c : Cfg) (p : Packet) : Reads c .inbound [p.b0, p.b1, p.b2] (decodePacket c p) := by
  obtain ⟨b0, b1, b2⟩ := p
  unfold decodePacket
  split_ifs with hb hr ha
  · obtain rfl : b0 = c.tagBiocEvent := hb
    exact .pktBioc b1 b2
  · obtain rfl : b0 = c.tagReset := hr
    exact .pktReset b1 b2 hb
  · obtain rfl : b0 = c.tagAck := ha
    exact .pktAck b1 b2 hb hr
  · exact .pktUnk b0 b1 b2 (Cfg.namedTag_eq_false_iff.mpr ⟨hb, hr, ha⟩)

theorem reads_decodeCommand (c : Cfg) (k : HostCmd) : Reads c .host k.bytes (decodeCommand k) := by
  obtain ⟨op, d0, d1, d2, d3, en, dp, dstOk⟩ := k
  unfold decodeCommand
  split_ifs with h0 h1 h2
  · obtain rfl : op = 0x00#8 := h0
    exact .init ..
  · obtain rfl : op = 0x01#8 := h1
    exact .setd ..
  · obtain rfl : op = 0x02#8 := h2
    exact .rdb ..
  · exact .badcmd (unsupported := supportedOp_eq_false_iff.mpr ⟨h0, h1, h2⟩) ..

theorem reads_of_decodeOutbound {c : Cfg} {l : List Byte} {i : Instr} (h : decodeOutbound c l = .ok i) :
    Reads c .outbound l i := by
  unfold decodeOutbound at h
  split at h
  · split_ifs at h with hb hu
    · subst hb; cases h; exact .biocOn
    · subst hu; cases h; exact .ledUsr hb
  · split_ifs at h with hset hsel
    subst hset hsel; cases h; exact .ledSet3 ..
  · split_ifs at h with hset hsel
    subst hset hsel; cases h; exact .ledSet4 ..
  · cases h

open Machine in
theorem decode_of_reads {c : Cfg} {ch : Channel} {l : List Byte} {i : Instr} (h : Reads c ch l i) :
    decode c ch l = .ok i := by
  cases h
  case pktBioc b1 b2 => exact decode_packetBytes (p := ⟨_, b1, b2⟩) (decodePacket_of_tagBiocEvent rfl)
  case pktReset b1 b2 hb => exact decode_packetBytes (p := ⟨_, b1, b2⟩) (by simp [decodePacket, hb])
  case pktAck b1 b2 hb hr => exact decode_packetBytes (p := ⟨_, b1, b2⟩) (by simp [decodePacket, hb, hr])
  case pktUnk t b1 b2 hn => exact decode_packetBytes (p := ⟨t, b1, b2⟩) (decodePacket_of_not_namedTag hn)
  case init => exact decode_commandBytes (decodeCommand_of_init rfl)
  case setd => exact decode_commandBytes (decodeCommand_of_setd rfl)
  case rdb => exact decode_commandBytes (decodeCommand_of_rdb rfl)
  case badcmd hs =>
    exact decode_commandBytes
      (decodeCommand_of_unsupported (three_le_toNat_iff.mpr (supportedOp_eq_false_iff.mp hs)))
  case biocOn => simp [decode, decodeOutbound]
  case ledUsr hb => simp [decode, decodeOutbound, hb]
  case ledSet3 => simp [decode, decodeOutbound, ledSet3Bytes]
  case ledSet4 => simp [decode, decodeOutbound, ledSet4Bytes]

theorem decode_iff_reads {c : Cfg} {ch : Channel} {l : List Byte} {i : Instr} :
    decode c ch l = .ok i ↔ Reads c ch l i := by
  refine ⟨fun h => ?_, decode_of_reads⟩
  obtain ⟨p, rfl, rfl, rfl⟩ | ⟨k, rfl, rfl, rfl⟩ | ⟨rfl, ho⟩ := decode_ok_cases h
  · exact reads_decodePacket c p
  · exact reads_decodeCommand c k
  · exact reads_of_decodeOutbound ho

end Sys2Proof
end

section
/-! PROOFS of the family 30_encoding, decode against encode: O36 and O37. The encoding of an operation meets the guard
of its row, and each row that is read differs from the encoding only in the bytes that the block ignores. -/
namespace Sys2Proof.Machine

/-- Settles O36: the encoding is read by the operation's row, whose guard is the distinctness of the tags (R9), the
well-formedness of the operation, or of `LED_USR` the premise on its command byte. -/
theorem decodeEncodeRoundTrip : Obligations.DecodeEncodeRoundTrip := by
  rintro c i ⟨⟨hbioc_reset, hbioc_ack, hreset_ack⟩, -, -⟩ hi hl
  refine decode_of_reads ?_
  cases i
  case pktReset => exact .pktReset _ _ hbioc_reset.symm
  case pktAck => exact .pktAck _ _ hbioc_ack.symm hreset_ack.symm
  case pktUnk => exact .pktUnk _ _ _ (by simpa [Instr.wellFormed] using hi)
  case badcmd => exact .badcmd (unsupported := by simpa [Instr.wellFormed] using hi) ..
  case ledUsr => exact .ledUsr (hl rfl)
  all_goals constructor

theorem wellFormed_of_decode {c : Cfg} {ch : Channel} {l : List Byte} {i : Instr} (h : decode c ch l = .ok i) :
    i.wellFormed c = true := by
  cases decode_iff_reads.mp h
  case pktUnk hn => simp [Instr.wellFormed, hn]
  case badcmd hs => simp [Instr.wellFormed, hs]
  all_goals rfl

theorem channel_of_decode {c : Cfg} {ch : Channel} {l : List Byte} {i : Instr} (h : decode c ch l = .ok i) :
    i.channel = ch := by
  cases decode_iff_reads.mp h <;> rfl

theorem encode_length_of_decode {c : Cfg} {ch : Channel} {l : List Byte} {i : Instr} (h : decode c ch l = .ok i) :
    (encode c i).length = l.length := by
  cases decode_iff_reads.mp h <;> rfl

/-- Of the first byte, tag, `op` or command, no bit is ignored. -/
theorem encode_head_of_decode {c : Cfg} {ch : Channel} {l : List Byte} {i : Instr} (h : decode c ch l = .ok i) :
    (encode c i)[0]? = l[0]? := by
  cases decode_iff_reads.mp h <;> rfl

theorem encode_of_decode_outbound {c : Cfg} {l : List Byte} {i : Instr} (h : decode c .outbound l = .ok i) :
    encode c i = l := by
  cases decode_iff_reads.mp h <;> rfl

/-- Only the reset and the acknowledgment packet have a payload that is ignored (R64). -/
theorem encode_of_decode_inbound {c : Cfg} {l : List Byte} {i : Instr} (hr : i ≠ .pktReset) (ha : i ≠ .pktAck)
    (h : decode c .inbound l = .ok i) : encode c i = l := by
  cases decode_iff_reads.mp h
  case pktReset => exact absurd rfl hr
  case pktAck => exact absurd rfl ha
  case pktBioc | pktUnk => rfl

theorem encode_take_of_decode_setd {c : Cfg} {ch : Channel} {l : List Byte} {i : Instr} (hi : isSetd i = true)
    (h : decode c ch l = .ok i) : (encode c i).take 7 = l.take 7 := by
  cases decode_iff_reads.mp h
  case setd => rfl
  all_goals cases hi

theorem encode_getLast_of_decode_rdb {c : Cfg} {ch : Channel} {l : List Byte} {dstOk : Bool}
    (h : decode c ch l = .ok (.rdb dstOk)) : (encode c (.rdb dstOk)).getLast? = l.getLast? := by
  cases decode_iff_reads.mp h
  rfl

/-- Settles O37, clause by clause. -/
theorem decodedBytesAreTheEncoding : Obligations.DecodedBytesAreTheEncoding := by
  intro c ch l i h
  refine ⟨wellFormed_of_decode h, channel_of_decode h, encode_length_of_decode h, ?_,
    fun _ => encode_head_of_decode h, ?_, fun hi => encode_take_of_decode_setd hi h, ?_⟩
  · rintro rfl
    exact encode_of_decode_outbound h
  · rintro rfl hr ha
    exact encode_of_decode_inbound hr ha h
  · rintro dstOk rfl
    exact encode_getLast_of_decode_rdb h

end Sys2Proof.Machine
end

section
/-! PROOFS of the family 30_encoding, bytes and words at the machine: O2, O24, O33 and O38. -/
namespace Sys2Proof.Machine

theorem step_placeBytes_packet {s : State} (p : Packet) (hv : s.cfg.Valid) :
    step (placeBytes .inbound [p.b0, p.b1, p.b2] s) = exec (decodePacket s.cfg p) { s with drive := none } :=
  step_of_inbox_one (e := .packet p) (rest := s.inbox) hv rfl rfl

theorem placeBytes_command (s : State) (k : HostCmd) :
    placeBytes .host k.bytes s = (s.setInbox (.one (.command k) :: s.inbox)).setDrive none := by
  simp only [placeBytes, HostCmd.ofBytes_bytes]

theorem step_placeBytes_command {s : State} (k : HostCmd) (hv : s.cfg.Valid) :
    step (placeBytes .host k.bytes s) = exec (decodeCommand k) { s with drive := none } := by
  rw [placeBytes_command]
  exact step_of_inbox_one (e := .command k) (rest := s.inbox) hv rfl rfl

/-- A packet and a command go through the offers, an outbound command through the drive port (logs 3, 6). -/
theorem step_placeBytes {s : State} {ch : Channel} {l : List Byte} {i : Instr} (hv : s.cfg.Valid)
    (h : decode s.cfg ch l = .ok i) : step (placeBytes ch l s) = exec i { s with drive := none } := by
  obtain ⟨p, rfl, rfl, rfl⟩ | ⟨k, rfl, rfl, rfl⟩ | ⟨rfl, ho⟩ := decode_ok_cases h
  · exact step_placeBytes_packet p hv
  · exact step_placeBytes_command k hv
  · exact step_of_drive_decoded (s := s.setDrive (some l)) hv rfl ho

theorem decodeTableWord_eq_some_iff {nbits w : Nat} {i : Instr} :
    decodeTableWord nbits w = some i ↔
      decode cfgRef (tableBytes cfgRef nbits w).1 (tableBytes cfgRef nbits w).2 = .ok i := by
  unfold decodeTableWord
  split <;> simp [*]

theorem cfgRef_valid : cfgRef.Valid := by decide

/-- Settles O2: a table word is placed as the bytes it stands for. -/
theorem placedBytesRunAsDecoded : Obligations.PlacedBytesRunAsDecoded := by
  refine ⟨fun s ch l i hv h => ⟨wellFormed_of_decode h, step_placeBytes hv h⟩, fun s nbits w i hc h => ?_⟩
  refine step_placeBytes (hc ▸ cfgRef_valid) ?_
  rw [hc]
  exact decodeTableWord_eq_some_iff.mp h

/-- Settles O24. -/
theorem hostOpcodeMap : Obligations.HostOpcodeMap := fun _ =>
  ⟨decodeCommand_of_init, decodeCommand_of_setd, decodeCommand_of_rdb, decodeCommand_of_unsupported⟩

/-- Settles O33: the effects of the two rows. -/
theorem setDisplayCommandBytes : Obligations.SetDisplayCommandBytes :=
  ⟨fun _ p0 p1 p2 => exec_of_effect (.ledSet3 p0 p1 p2),
    fun _ p0 p1 p2 p3 => exec_of_effect (.ledSet4 p0 p1 p2 p3)⟩

/-- Settles O38: nine closed words. -/
theorem sampleWordsDecode : Obligations.SampleWordsDecode := by
  unfold Obligations.SampleWordsDecode
  decide

end Sys2Proof.Machine
end

section
/-! PROOFS of the family 30_encoding, tags and payloads of packets: O16 and O17. -/
namespace Sys2Proof.Machine

/-- The three tags that name a handler (R62). -/
def namedTags (c : Cfg) : Finset (Fin 256) := {c.tagBiocEvent.toFin, c.tagReset.toFin, c.tagAck.toFin}

theorem namedTag_ofFin_eq_false_iff {c : Cfg} {t : Fin 256} :
    c.namedTag (BitVec.ofFin t) = false ↔ t ∉ namedTags c := by
  simp [namedTags, Cfg.namedTag_eq_false_iff, ← BitVec.toFin_inj]

theorem card_namedTags {c : Cfg} (hv : c.Valid) : (namedTags c).card = 3 := by
  obtain ⟨⟨hbioc_reset, hbioc_ack, hreset_ack⟩, -, -⟩ := hv
  exact Finset.card_eq_three.mpr ⟨_, _, _, mt BitVec.toFin_inj.mp hbioc_reset, mt BitVec.toFin_inj.mp hbioc_ack,
    mt BitVec.toFin_inj.mp hreset_ack, rfl⟩

theorem card_unnamedTags {c : Cfg} (hv : c.Valid) :
    (Finset.univ.filter fun t : Fin 256 => c.namedTag (BitVec.ofFin t) = false).card = 253 := by
  have hcompl : (Finset.univ.filter fun t : Fin 256 => c.namedTag (BitVec.ofFin t) = false) = (namedTags c)ᶜ := by
    ext t
    rw [Finset.mem_filter_univ, Finset.mem_compl, namedTag_ofFin_eq_false_iff]
  rw [hcompl, Finset.card_compl, card_namedTags hv, Fintype.card_fin]

/-- Settles O16: the row of each tag, and the complement of the three named tags. -/
theorem tagByteSelectsOperation : Obligations.TagByteSelectsOperation := fun _ hv =>
  ⟨fun _ => ⟨decodePacket_of_tagBiocEvent, decodePacket_of_tagReset hv, decodePacket_of_tagAck hv,
    decodePacket_of_not_namedTag⟩, card_unnamedTags hv⟩

/-- The high nibbles do not reach `Compose`: each of its three masks lies within 0x0F (R63, R91). -/
theorem compose_and_0x0F (b1 b2 : Byte) : compose (b1 &&& 0x0F#8) (b2 &&& 0x0F#8) = compose b1 b2 := by
  simp [compose, actionMask, clusterMask, leftSrc, downSrc, BitVec.and_assoc]

theorem compose_congr_of_and_0x0F {b1 b2 b1' b2' : Byte} (h1 : b1 &&& 0x0F#8 = b1' &&& 0x0F#8)
    (h2 : b2 &&& 0x0F#8 = b2' &&& 0x0F#8) : compose b1 b2 = compose b1' b2' := by
  rw [← compose_and_0x0F b1, h1, h2, compose_and_0x0F]

/-- The decoder drops the payload of two of the other rows, and `PKT.UNK`, which carries it, does nothing (R64). -/
theorem exec_decodePacket_ignores_payload {s : State} {b0 : Byte} (hb : b0 ≠ s.cfg.tagBiocEvent)
    (b1 b2 b1' b2' : Byte) :
    exec (decodePacket s.cfg ⟨b0, b1, b2⟩) s = exec (decodePacket s.cfg ⟨b0, b1', b2'⟩) s := by
  simp only [decodePacket, if_neg hb]
  split_ifs
  · rfl
  · rfl
  · exact (exec_of_effect (.pktUnk b0 b1 b2)).trans (exec_of_effect (.pktUnk b0 b1' b2')).symm

/-- Settles O17: a button event writes `Compose` of its payload, every other packet ignores it. -/
theorem unusedPayloadHasNoEffect : Obligations.UnusedPayloadHasNoEffect := by
  refine ⟨fun s b0 b1 b2 b1' b2' hb => exec_decodePacket_ignores_payload hb b1 b2 b1' b2', ?_⟩
  rintro s b0 b1 b2 b1' b2' rfl h1 h2
  rw [handle_bioc, handle_bioc, compose_congr_of_and_0x0F h1 h2]

end Sys2Proof.Machine
end

section
/-! PROOFS of the family 30_encoding, operands and responses of host commands: O21 and O29. -/
namespace Sys2Proof.Machine

theorem lowNibble_toNat (v : Byte) : (lowNibble v).toNat = v.toNat % 16 := BitVec.toNat_setWidth 4 v

theorem toNat_and_0x0F (v : Byte) : (v &&& 0x0F#8).toNat = v.toNat % 16 := by
  rw [BitVec.toNat_and]
  exact Nat.and_two_pow_sub_one_eq_mod v.toNat 4

theorem lowNibble_and_0x0F (v : Byte) : lowNibble (v &&& 0x0F#8) = lowNibble v := by
  apply BitVec.eq_of_toNat_eq
  rw [lowNibble_toNat, lowNibble_toNat, toNat_and_0x0F, Nat.mod_mod]

theorem reduceRequest_and_0x0F (d0 d1 d2 d3 en dp : Byte) :
    reduceRequest (d0 &&& 0x0F#8) (d1 &&& 0x0F#8) (d2 &&& 0x0F#8) (d3 &&& 0x0F#8) (en &&& 0x0F#8) (dp &&& 0x0F#8) =
      reduceRequest d0 d1 d2 d3 en dp := by
  simp only [reduceRequest, lowNibble_and_0x0F]

/-- A set-display sees its operands only through the reduced request (R69). -/
theorem exec_setd_congr {d0 d1 d2 d3 en dp d0' d1' d2' d3' en' dp' : Byte} (s : State)
    (h : reduceRequest d0 d1 d2 d3 en dp = reduceRequest d0' d1' d2' d3' en' dp') :
    exec (.setd d0 d1 d2 d3 en dp) s = exec (.setd d0' d1' d2' d3' en' dp') s := by
  cases hg : s.inflight with
  | false =>
    rw [exec_of_effect (.setdAdmitted d0 d1 d2 d3 en dp hg), h]
    exact (exec_of_effect (.setdAdmitted d0' d1' d2' d3' en' dp' hg)).symm
  | true => rw [exec_of_effect (.setdBusy _ _ _ _ _ _ hg), exec_of_effect (.setdBusy _ _ _ _ _ _ hg)]

/-- Settles O21: masking an operand leaves its low nibble, and an open gate admits every operand. -/
theorem setdOperandsAreReduced : Obligations.SetdOperandsAreReduced := by
  refine ⟨fun d0 d1 d2 d3 en dp => ?_, fun s d0 d1 d2 d3 en dp => ?_, fun _ _ _ _ _ => rfl,
    fun s d0 d1 d2 d3 en dp hg => ⟨_, exec_of_effect (.setdAdmitted _ _ _ _ _ _ hg), rfl⟩⟩
  · simp only [reduceRequest, lowNibble_toNat, toNat_and_0x0F, and_self]
  · exact exec_setd_congr s (reduceRequest_and_0x0F ..).symm

theorem handle_command_of_effect {k : HostCmd} {s t : State} {i : Instr} (hi : decodeCommand k = i)
    (h : Effect s i t) : handle (.command k) s = .next t := by
  subst hi
  exact exec_of_effect h

/-- The table of R68, row by row of the opcode map and branch by branch of each effect. -/
theorem response_of_command (s : State) (k : HostCmd) :
    ∃ t r, handle (.command k) s = .next t ∧ t.responses = s.responses ++ [r] ∧
      (r.status = .busy ↔ k.op = 0x01#8 ∧ s.inflight = true) ∧
      (r.status = .invalid ↔ (k.op = 0x02#8 ∧ k.dstOk = false) ∨ 0x03 ≤ k.op.toNat) ∧
      r.data = if k.op = 0x02#8 ∧ k.dstOk = true then s.btn else 0x00#8 := by
  obtain ⟨ho, h⟩ | ⟨ho, h⟩ | ⟨ho, h⟩ | ⟨ho, h⟩ := decodeCommand_cases k
  · exact ⟨_, _, handle_command_of_effect h .init, rfl, by simp [ho]⟩
  · cases hg : s.inflight with
    | false => exact ⟨_, _, handle_command_of_effect h (.setdAdmitted _ _ _ _ _ _ hg), rfl, by simp [ho]⟩
    | true => exact ⟨_, _, handle_command_of_effect h (.setdBusy _ _ _ _ _ _ hg), rfl, by simp [ho]⟩
  · cases hk : k.dstOk with
    | false => exact ⟨_, _, handle_command_of_effect (hk ▸ h) .rdbBad, rfl, by simp [ho]⟩
    | true => exact ⟨_, _, handle_command_of_effect (hk ▸ h) .rdbGood, rfl, by simp [ho]⟩
  · have hop : 0x03 ≤ k.op.toNat := three_le_toNat_iff.mpr ho
    exact ⟨_, _, handle_command_of_effect h (.badcmd _), rfl, by simp [ho, hop]⟩

theorem Status.code_ne_three (st : Status) : st.code ≠ 3#2 := by cases st <;> decide

/-- Settles O29. -/
theorem responseOfEachCommand : Obligations.ResponseOfEachCommand :=
  ⟨response_of_command, ⟨rfl, rfl, rfl⟩, Status.code_ne_three⟩

end Sys2Proof.Machine
end

section
/-! PROOFS of the family 40_packet_decoder, the four packets: O12 to O15 and O18. What each packet writes is its
`Effect`; which packet a tag selects is the decoder's row of that tag. -/
namespace Sys2Proof.Machine

/-- Settles O18: of the four packets, each writes no more than its effect says. -/
theorem packetFrame : Obligations.PacketFrame := by
  intro i s t hp h
  cases exec_iff_effect.mp h
  case pktBioc b1 b2 =>
    exact ⟨⟨rfl, rfl, rfl, rfl, rfl, rfl⟩, .inl rfl, id, fun _ => rfl, .inr ⟨b1, b2, rfl, rfl⟩⟩
  case pktReset => exact ⟨⟨rfl, rfl, rfl, rfl, rfl, rfl⟩, .inr ⟨rfl, rfl⟩, nofun, nofun, .inl rfl⟩
  case pktAck => exact ⟨⟨rfl, rfl, rfl, rfl, rfl, rfl⟩, .inl rfl, nofun, nofun, .inl rfl⟩
  case pktUnk => exact ⟨⟨rfl, rfl, rfl, rfl, rfl, rfl⟩, .inl rfl, id, fun _ => rfl, .inl rfl⟩
  all_goals cases hp

/-- Settles O12. -/
theorem buttonEventPacket : Obligations.ButtonEventPacket :=
  ⟨fun _ b1 b2 => exec_of_effect (.pktBioc b1 b2), fun _ _ _ => decodePacket_of_tagBiocEvent rfl, rfl, rfl, rfl, rfl⟩

theorem encodeRequest_length (c : Cfg) (r : DisplayRequest) :
    (encodeRequest c r).length = if r.en = enSpecial then 5 else 6 := by
  unfold encodeRequest
  split <;> rfl

/-- The three requests of a reset packet are 7 or 8 bytes in all (R94). -/
theorem resetRequests_length (c : Cfg) (r : DisplayRequest) :
    ([c.cmdBiocOn] ++ [c.cmdLedUsr] ++ encodeRequest c r).length = if r.en = enSpecial then 7 else 8 := by
  rw [List.length_append, encodeRequest_length]
  split <;> rfl

/-- Settles O13. -/
theorem resetPacket : Obligations.ResetPacket :=
  ⟨fun _ => exec_of_effect .pktReset, fun _ _ _ hv => decodePacket_of_tagReset hv rfl, resetRequests_length, rfl⟩

theorem handle_packet_of_effect {p : Packet} {s t : State} {i : Instr} (hi : decodePacket s.cfg p = i)
    (h : Effect s i t) : handle (.packet p) s = .next t := by
  subst hi
  exact exec_of_effect h

theorem handle_ack {p : Packet} {s : State} (hv : s.cfg.Valid) (hp : p.b0 = s.cfg.tagAck) :
    handle (.packet p) s = .next { s with inflight := false } :=
  handle_packet_of_effect (decodePacket_of_tagAck hv hp) .pktAck

/-- Settles O14: the set-display leaves the flag 1 whether it is admitted or not, and the configuration unchanged, so
that the packet is still an acknowledgment in the state after it. -/
theorem acknowledgmentPacket : Obligations.AcknowledgmentPacket := by
  refine ⟨fun _ => exec_of_effect .pktAck, fun _ _ _ hv => decodePacket_of_tagAck hv rfl, fun s p k hv hp ho => ?_⟩
  obtain ⟨t, ht⟩ := handle_completes (.command k) s
  have hflag : t.inflight = true := by
    rw [handle_inflight ht, eventIsSetd_iff.mpr ⟨k, rfl, ho⟩, Bool.true_or]
  have hcfg : t.cfg = s.cfg := handle_cfg ht
  have hadmitted := handle_command_of_effect (s := { t with inflight := false }) (decodeCommand_of_setd ho)
    (.setdAdmitted _ _ _ _ _ _ rfl)
  exact ⟨t, _, _, ht, hflag, handle_ack (hcfg ▸ hv) (hcfg ▸ hp), rfl, hadmitted, rfl⟩

/-- Settles O15. -/
theorem unknownPacket : Obligations.UnknownPacket :=
  ⟨fun _ t b1 b2 => exec_of_effect (.pktUnk t b1 b2), fun _ _ _ _ hbioc hreset hack =>
    decodePacket_of_not_namedTag (Cfg.namedTag_eq_false_iff.mpr ⟨hbioc, hreset, hack⟩)⟩

end Sys2Proof.Machine
end

section
/-! PROOFS of the family 40_packet_decoder, `Compose`: O19 and O20. Everything is read off the formula of R91, in which
each input byte is masked, shifted and joined by OR. -/
namespace Sys2Proof.Machine

theorem compose_eq (b1 b2 : Byte) :
    compose b1 b2 =
      ((b1 &&& 0x0F#8) ||| ((b2 &&& 0x02#8) <<< 4) ||| ((b2 &&& 0x04#8) <<< 1) ||| ((b2 &&& 0x09#8) <<< 4)) := rfl

/-- Settles O19: a bit of the formula is the OR of the four terms' bits, of which the masks leave those R91 names. -/
theorem composeBitByBit : Obligations.ComposeBitByBit := by
  intro b1 b2
  refine ⟨compose_eq b1 b2, ?_⟩
  simp [compose_eq]

/-- Masks and shifts distribute over OR, so `Compose` does. -/
theorem compose_or (b1 b2 c1 c2 : Byte) : compose (b1 ||| c1) (b2 ||| c2) = compose b1 b2 ||| compose c1 c2 := by
  simp only [compose_eq, BitVec.and_or_distrib_right, BitVec.shiftLeft_or_distrib]
  ac_rfl

/-- Two ways to say that every bit of `x` is a bit of `y`. -/
theorem and_eq_left_iff_or_eq_right {w : Nat} {x y : BitVec w} : x &&& y = x ↔ x ||| y = y := by
  simp only [BitVec.eq_of_getLsbD_eq_iff, BitVec.getLsbD_and, BitVec.getLsbD_or, Bool.and_eq_left_iff_imp,
    Bool.or_eq_right_iff_imp]

/-- `Compose` is monotone (R93) because it distributes over OR. -/
theorem compose_mono {b1 b2 c1 c2 : Byte} (h1 : b1 &&& c1 = b1) (h2 : b2 &&& c2 = b2) :
    compose b1 b2 &&& compose c1 c2 = compose b1 b2 := by
  rw [and_eq_left_iff_or_eq_right] at h1 h2 ⊢
  rw [← compose_or, h1, h2]

/-- Settles O20: range, high nibbles and monotonicity by their lemmas, collisions and single-bit images by
evaluation. -/
theorem composeProperties : Obligations.ComposeProperties :=
  ⟨fun b1 b2 => ⟨compose_and_bit6 b1 b2, toNat_le_of_and_bit6 _ (compose_and_bit6 b1 b2)⟩,
    rfl,
    fun b1 b2 => (compose_and_0x0F b1 b2).symm,
    ⟨rfl, rfl, rfl⟩,
    fun _ _ _ _ => compose_mono,
    ⟨rfl, rfl, rfl, rfl, rfl, rfl, rfl, rfl⟩⟩

end Sys2Proof.Machine
end

section
/-! PROOFS of the family 41_display_encoder: O22, O23 and O34. The encoder has one equation per form; a pattern byte
shows the decimal point because a valid segment table leaves that bit free (R9). -/
namespace Sys2Proof.Machine

/-! ### The two forms -/

theorem encodeRequest_of_enSpecial (c : Cfg) {r : DisplayRequest} (h : r.en = enSpecial) :
    encodeRequest c r = ledSet3Bytes c (pattern0 c r) (pattern1 c r) (pattern2 c r) := if_pos h

theorem encodeRequest_of_not_enSpecial (c : Cfg) {r : DisplayRequest} (h : r.en ≠ enSpecial) :
    encodeRequest c r = ledSet4Bytes c (pattern0 c r) (pattern1 c r) (pattern2 c r) (pattern3 c r) := if_neg h

theorem ledSetOf_of_enSpecial (c : Cfg) {r : DisplayRequest} (h : r.en = enSpecial) :
    ledSetOf c r = .ledSet3 (pattern0 c r) (pattern1 c r) (pattern2 c r) := if_pos h

theorem ledSetOf_of_not_enSpecial (c : Cfg) {r : DisplayRequest} (h : r.en ≠ enSpecial) :
    ledSetOf c r = .ledSet4 (pattern0 c r) (pattern1 c r) (pattern2 c r) (pattern3 c r) := if_neg h

/-- Settles O22: the equations of the two forms. -/
theorem encodeTwoForms : Obligations.EncodeTwoForms := fun c _ =>
  ⟨encodeRequest_of_enSpecial c, encodeRequest_of_not_enSpecial c⟩

/-! ### Pattern bytes and the corner cases -/

theorem dpBit_ne_zero {c : Cfg} (hv : c.Valid) : c.dpBit ≠ 0x00#8 := by
  obtain ⟨-, ⟨k, hk⟩, -⟩ := hv
  have hbit : ∀ j : Fin 8, 1#8 <<< j.val ≠ 0x00#8 := by decide
  exact hk ▸ hbit k

/-- A segment entry of a valid configuration lacks `DP_BIT`, so the bit tells the decimal point (R112(f)). -/
theorem pattern_and_dpBit {c : Cfg} (hv : c.Valid) (digit : Nibble) (point : Bool) :
    pattern c digit point &&& c.dpBit = if point then c.dpBit else 0x00#8 := by
  obtain ⟨-, -, hfree⟩ := hv
  have hseg : c.seg[digit.toNat] &&& c.dpBit = 0x00#8 := hfree digit.toFin
  cases point <;> simp [pattern, BitVec.and_or_distrib_right, hseg]

theorem pattern_has_dpBit_iff {c : Cfg} (hv : c.Valid) (digit : Nibble) (point : Bool) :
    pattern c digit point &&& c.dpBit = c.dpBit ↔ point = true := by
  rw [pattern_and_dpBit hv]
  cases point
  · simpa using (dpBit_ne_zero hv).symm
  · simp

theorem pattern_congr (c : Cfg) {d d' : Nibble} {p p' : Bool} (hd : d = d') (hp : p = p') :
    pattern c d p = pattern c d' p' := by rw [hd, hp]

/-- R112(a): the enable mask enters only through the comparison with `0b0111`. -/
theorem encodeRequest_set_en (c : Cfg) {r : DisplayRequest} {en : Nibble} (hr : r.en ≠ enSpecial)
    (he : en ≠ enSpecial) : encodeRequest c r = encodeRequest c { r with en := en } := by
  rw [encodeRequest_of_not_enSpecial c hr, encodeRequest_of_not_enSpecial (r := { r with en := en }) c he]
  rfl

/-- R112(b): the 3-digit form holds no pattern of position 3. -/
theorem encodeRequest_set_position3 (c : Cfg) {r : DisplayRequest} (d3 : Nibble) {dp : Nibble}
    (hr : r.en = enSpecial) (hdp : ∀ i, i < 3 → dp.getLsbD i = r.dp.getLsbD i) :
    encodeRequest c { r with d3 := d3, dp := dp } = encodeRequest c r := by
  rw [encodeRequest_of_enSpecial (r := { r with d3 := d3, dp := dp }) c hr, encodeRequest_of_enSpecial c hr]
  simp only [pattern0, pattern1, pattern2, hdp 0 (by decide), hdp 1 (by decide), hdp 2 (by decide)]

theorem encodeRequest_first_byte (c : Cfg) (r : DisplayRequest) :
    (encodeRequest c r)[0]? = some c.cmdLedSet := by
  by_cases h : r.en = enSpecial
  · rw [encodeRequest_of_enSpecial c h]; rfl
  · rw [encodeRequest_of_not_enSpecial c h]; rfl

theorem encodeRequest_select_byte (c : Cfg) (r : DisplayRequest) :
    (encodeRequest c r)[1]? = some (if r.en = enSpecial then selectThree else selectAll) := by
  by_cases h : r.en = enSpecial
  · rw [encodeRequest_of_enSpecial c h, if_pos h]; rfl
  · rw [encodeRequest_of_not_enSpecial c h, if_neg h]; rfl

/-- Settles O23: the two forms decide (a) to (e), the bit `DP_BIT` (f), and a pattern reads nothing else (g). -/
theorem encodeCornerCases : Obligations.EncodeCornerCases :=
  ⟨fun c _ _ => encodeRequest_set_en c,
    fun c _ d3 _ => encodeRequest_set_position3 c d3,
    encodeRequest_length,
    fun c r => ⟨encodeRequest_first_byte c r, encodeRequest_select_byte c r⟩,
    fun _ _ hv => ⟨pattern_has_dpBit_iff hv _ _, pattern_has_dpBit_iff hv _ _, pattern_has_dpBit_iff hv _ _,
      pattern_has_dpBit_iff hv _ _⟩,
    fun c _ => ⟨pattern_congr c, pattern_congr c, pattern_congr c, pattern_congr c, pattern_congr c,
      pattern_congr c⟩⟩

/-! ### The request as an operation -/

theorem exec_ledSetOf (s : State) (r : DisplayRequest) :
    exec (ledSetOf s.cfg r) s = .next { s with out := s.out ++ [encodeRequest s.cfg r] } := by
  by_cases h : r.en = enSpecial
  · rw [ledSetOf_of_enSpecial _ h, encodeRequest_of_enSpecial _ h]
    exact exec_of_effect (.ledSet3 ..)
  · rw [ledSetOf_of_not_enSpecial _ h, encodeRequest_of_not_enSpecial _ h]
    exact exec_of_effect (.ledSet4 ..)

theorem encode_ledSetOf (c : Cfg) (r : DisplayRequest) : encode c (ledSetOf c r) = encodeRequest c r := by
  by_cases h : r.en = enSpecial
  · rw [ledSetOf_of_enSpecial c h, encodeRequest_of_enSpecial c h]; rfl
  · rw [ledSetOf_of_not_enSpecial c h, encodeRequest_of_not_enSpecial c h]; rfl

/-- A clear decimal bit leaves the segment entry (R72). -/
theorem pattern_without_point (c : Cfg) (digit : Nibble) : pattern c digit false = c.seg[digit.toNat] :=
  BitVec.or_zero

theorem encodeRequest_1234_three_digits (c : Cfg) :
    encodeRequest c ⟨1, 2, 3, 4, 0b0111, 0⟩ = [c.cmdLedSet, 0x07, c.seg[1], c.seg[2], c.seg[3]] := by
  rw [encodeRequest_of_enSpecial c rfl]
  simp [ledSet3Bytes, selectThree, pattern0, pattern1, pattern2, pattern_without_point]

theorem encodeRequest_1234_four_digits (c : Cfg) :
    encodeRequest c ⟨1, 2, 3, 4, 0b1111, 0⟩ = [c.cmdLedSet, 0x0F, c.seg[1], c.seg[2], c.seg[3], c.seg[4]] := by
  rw [encodeRequest_of_not_enSpecial c (by decide)]
  simp [ledSet4Bytes, selectAll, pattern0, pattern1, pattern2, pattern3, pattern_without_point]

/-- Settles O34. -/
theorem ledSetSendsEncode : Obligations.LedSetSendsEncode :=
  ⟨exec_ledSetOf, encode_ledSetOf,
    fun c => ⟨encodeRequest_1234_three_digits c, encodeRequest_1234_four_digits c⟩⟩

end Sys2Proof.Machine
end

section
/-! PROOFS of the family 42_init_and_reset_recovery: O25, O32 and O51. A reset packet replays `LAST`, which the admitted
set-display wrote and no rejected one touches. -/
namespace Sys2Proof.Machine

/-- Settles O25. -/
theorem initCommand : Obligations.InitCommand :=
  ⟨fun _ => exec_of_effect .init, fun _ => decodeCommand_of_init, periphInit_eq⟩

/-- Settles O32. -/
theorem singleByteCommands : Obligations.SingleByteCommands :=
  ⟨fun _ => exec_of_effect .biocOn, fun _ => exec_of_effect .ledUsr, fun _ => ⟨rfl, rfl⟩⟩

theorem handleAll_cfg {es : List Event} {s t : State} (h : handleAll es s = .next t) : t.cfg = s.cfg :=
  handleAll_keeps (P := fun u => u.cfg = s.cfg) (fun _ _ _ _ hu hh => (handle_cfg hh).trans hu) rfl h

/-- Over a run without a reset in which every set-display finds the gate closed, `LAST` stays (R25, R140). -/
theorem handleAll_last_of_setds_rejected {es : List Event} {s t : State} (he : ∀ e ∈ es, e ≠ .rst)
    (hrej : ∀ pre k post v, es = pre ++ .command k :: post → k.op = 0x01#8 → handleAll pre s = .next v →
      v.inflight = true) (h : handleAll es s = .next t) : t.last = s.last := by
  obtain hl | ⟨pre, k, post, v, hes, ho, hv, hopen⟩ := handleAll_last_cases he h
  · exact hl
  · have hclosed : v.inflight = true := hrej pre k post v hes ho hv
    simp [hopen] at hclosed

theorem handle_setd_of_open {k : HostCmd} {s : State} (ho : k.op = 0x01#8) (hg : s.inflight = false) :
    handle (.command k) s = .next { s with
      inflight := true
      last := requestOf k
      out := s.out ++ [encodeRequest s.cfg (requestOf k)]
      responses := s.responses ++ [⟨.ok, 0x00⟩] } :=
  handle_command_of_effect (decodeCommand_of_setd ho) (.setdAdmitted _ _ _ _ _ _ hg)

theorem handle_resetPacket {p : Packet} {s : State} (hv : s.cfg.Valid) (hp : p.b0 = s.cfg.tagReset) :
    handle (.packet p) s = .next { s with
      out := s.out ++ [[s.cfg.cmdBiocOn], [s.cfg.cmdLedUsr], encodeRequest s.cfg s.last], inflight := false } :=
  handle_packet_of_effect (decodePacket_of_tagReset hv hp) .pktReset

/-- Settles O51: the set-display writes `LAST`, the events in between keep it and the configuration, and the reset
packet sends its encoding. -/
theorem replayIsExact : Obligations.ReplayIsExact := by
  intro s k es p hv hg ho hp he hrej
  have hsetd := handle_setd_of_open ho hg
  obtain ⟨t, hrun⟩ := handleAll_completes (.command k :: es) s
  have ht := (handleAll_cons_of_next es hsetd).symm.trans hrun
  have hlast : t.last = requestOf k :=
    handleAll_last_of_setds_rejected he
      (fun pre j post v hes hj h => hrej pre j post v hes hj ((handleAll_cons_of_next pre hsetd).trans h)) ht
  have hcfg : t.cfg = s.cfg := handleAll_cfg hrun
  have hreset := handle_resetPacket (hcfg ▸ hv) (hcfg ▸ hp)
  have hall := (handleAll_append (.command k :: es) [.packet p] s _).mpr
    ⟨t, hrun, handleAll_cons_of_next [] hreset⟩
  exact ⟨_, _, t.out, hsetd, rfl, hall, by rw [hcfg, hlast], rfl⟩

end Sys2Proof.Machine
end

section
/-! PROOFS of the family 43_flow_control_gate: O49 and O26. Backwards along a run, a closed gate goes back to the
set-display that closed it; forwards, only an event that opens the gate ends what a set-display closed. -/
namespace Sys2Proof.Machine

theorem handleAll_nil (s : State) : handleAll [] s = .next s := rfl

theorem handleAll_concat (es : List Event) (e : Event) (s t : State) :
    handleAll (es ++ [e]) s = .next t ↔ ∃ v, handleAll es s = .next v ∧ handle e v = .next t := by
  simp [handleAll_append, handleAll_cons, handleAll_nil]

/-- A run that closes an open gate holds a set-display that found it open, and nothing since opens the gate (R142). -/
theorem exists_admitted_setd_of_handleAll {es : List Event} {s t : State} (hs : s.inflight = false)
    (h : handleAll es s = .next t) (ht : t.inflight = true) :
    ∃ pre k post u, es = pre ++ .command k :: post ∧ k.op = 0x01#8 ∧ handleAll pre s = .next u ∧
      u.inflight = false ∧ ∀ e ∈ post, eventOpensGate s.cfg e = false := by
  induction es using List.reverseRecOn generalizing t with
  | nil =>
    cases h
    simp [hs] at ht
  | append_singleton es e ih =>
    obtain ⟨v, hv, he⟩ := (handleAll_concat es e s t).mp h
    obtain ⟨hclose, hopen⟩ := inflightTransitions e v t he
    cases hflag : v.inflight with
    | false =>
      obtain ⟨k, rfl, ho⟩ := eventIsSetd_iff.mp ((hclose hflag).mp ht)
      exact ⟨es, k, [], v, rfl, ho, hv, hflag, by simp⟩
    | true =>
      obtain ⟨pre, k, post, u, rfl, ho, hu, hadm, hpost⟩ := ih hv hflag
      have hkept : eventOpensGate s.cfg e = false := by
        simpa [ht, handleAll_cfg hv] using hopen hflag
      exact ⟨pre, k, post ++ [e], u, by simp, ho, hu, hadm,
        List.forall_mem_append.mpr ⟨hpost, by simpa using hkept⟩⟩

/-- Events that do not open the gate leave it closed (R27). -/
theorem handleAll_keeps_inflight {es : List Event} {s t : State} (he : ∀ e ∈ es, eventOpensGate s.cfg e = false)
    (hs : s.inflight = true) (h : handleAll es s = .next t) : t.inflight = true := by
  have hkeep : t.cfg = s.cfg ∧ t.inflight = true := by
    refine handleAll_keeps (P := fun u => u.cfg = s.cfg ∧ u.inflight = true) ?_ ⟨rfl, hs⟩ h
    rintro e hmem u v ⟨hcfg, hflag⟩ hu
    exact ⟨(handle_cfg hu).trans hcfg, by simp [handle_inflight hu, hflag, hcfg, he e hmem]⟩
  exact hkeep.2

/-- Behind a set-display, admitted or rejected, the gate is closed (R140). -/
theorem handle_setd_inflight {k : HostCmd} {s t : State} (ho : k.op = 0x01#8)
    (h : handle (.command k) s = .next t) : t.inflight = true := by
  simp [handle_inflight h, eventIsSetd_iff.mpr ⟨k, rfl, ho⟩]

/-- A run that leaves the gate open after a set-display held an event that opens it since (R142). -/
theorem exists_opening_event_of_handleAll {es mid : List Event} {k : HostCmd} {s t : State} (ho : k.op = 0x01#8)
    (h : handleAll (es ++ .command k :: mid) s = .next t) (ht : t.inflight = false) :
    ∃ e ∈ mid, eventOpensGate s.cfg e = true := by
  obtain ⟨u, hu, hrest⟩ := (handleAll_append es (.command k :: mid) s t).mp h
  obtain ⟨v, hv, hmid⟩ := (handleAll_cons (.command k) mid u t).mp hrest
  have hcfg : v.cfg = s.cfg := (handle_cfg hv).trans (handleAll_cfg hu)
  by_contra! hnone
  have hclosed : t.inflight = true :=
    handleAll_keeps_inflight (by simpa [hcfg] using hnone) (handle_setd_inflight ho hv) hmid
  simp [ht] at hclosed

/-- Settles O49: the reset leaves the gate open, so both halves are facts about the events after it. -/
theorem gateInvariant : Obligations.GateInvariant :=
  ⟨fun _ s _ h ht => exists_admitted_setd_of_handleAll (hardReset_inflight s) h ht,
    fun _ _ _ s _ ho h ht => exists_opening_event_of_handleAll (s := hardReset s) ho h ht⟩

/-- Settles O26: the two effects of the operation, which the flag tells apart. -/
theorem setDisplayCommand : Obligations.SetDisplayCommand :=
  ⟨fun _ _ _ _ _ _ _ hg => exec_of_effect (.setdBusy _ _ _ _ _ _ hg),
    fun _ _ _ _ _ _ _ hg => exec_of_effect (.setdAdmitted _ _ _ _ _ _ hg),
    fun _ => decodeCommand_of_setd⟩

end Sys2Proof.Machine
end

section
/-! PROOFS of the family 44_button_read: O27 and O28. Each branch of the two commands is one effect of the operation, and
the `op` byte selects the operation. -/
namespace Sys2Proof.Machine

/-- Settles O27: the two effects of the operation, which `dst_ok` tells apart; only the good read clears `BTN`. -/
theorem readButtonsCommand : Obligations.ReadButtonsCommand :=
  ⟨fun _ => exec_of_effect .rdbBad, fun _ => exec_of_effect .rdbGood, fun _ => decodeCommand_of_rdb⟩

/-- Settles O28: the operation has one effect, whatever its `op`. -/
theorem unsupportedCommand : Obligations.UnsupportedCommand :=
  ⟨fun _ op => exec_of_effect (.badcmd op), fun _ => decodeCommand_of_unsupported⟩

end Sys2Proof.Machine
end

section
/-! PROOFS of the family 60_exceptions, completion and stops: O3 and O4. -/
namespace Sys2Proof.Machine

/-- Settles O3. -/
theorem everyEventCompletes : Obligations.EveryEventCompletes := ⟨handle_completes, handleAll_completes⟩

/-- With nothing driven a step is idle or handles an event, which completes (R170). -/
theorem step_completes_of_drive_none {s : State} (hv : s.cfg.Valid) (hd : s.drive = none) : ∃ t, step s = .next t := by
  obtain ⟨-, -, h⟩ | ⟨e, s', -, -, h⟩ | ⟨_, _, hd', -⟩ | ⟨_, _, hd', -⟩ := step_cases hv
  · exact ⟨s, h⟩
  · exact h ▸ handle_completes e s'
  · simp [hd] at hd'
  · simp [hd] at hd'

theorem step_of_not_valid {s : State} (hv : ¬ s.cfg.Valid) : step s = .refused .configOutsideContract := by
  simp only [step, if_neg hv]

theorem step_of_drive_rejected {s : State} {l : List Byte} {e : Reject} (hv : s.cfg.Valid) (hd : s.drive = some l)
    (he : decode s.cfg .outbound l = .error e) : step s = .refused .driveNotACommand := by
  obtain ⟨hd', -⟩ | ⟨_, _, hd', -⟩ | ⟨_, _, hd', hi, -⟩ | ⟨_, _, -, -, h⟩ := step_cases hv
  · simp [hd] at hd'
  · simp [hd] at hd'
  · cases hd.symm.trans hd'
    simp [he] at hi
  · exact h

/-- Neither an event nor an operation is refused, so under a valid configuration only the drive port stops a step. -/
theorem drive_rejected_of_step_refused {s : State} {r : Refusal} (hv : s.cfg.Valid) (h : step s = .refused r) :
    ∃ l e, s.drive = some l ∧ decode s.cfg .outbound l = .error e := by
  obtain ⟨-, -, hs⟩ | ⟨e, s', -, -, hs⟩ | ⟨l, i, -, -, hs⟩ | ⟨l, e, hd, he, -⟩ := step_cases hv
  · cases hs.symm.trans h
  · obtain ⟨t, ht⟩ := handle_completes e s'
    cases (hs.trans ht).symm.trans h
  · obtain ⟨t, ht⟩ := exec_completes i (s.setDrive none)
    cases (hs.trans ht).symm.trans h
  · exact ⟨l, e, hd, he⟩

/-- Settles O4: the step that completes keeps the configuration and the empty port, as every step does. -/
theorem stepStopsOnlyOutsideTheContract : Obligations.StepStopsOnlyOutsideTheContract := by
  refine ⟨fun s hv hd => ?_, fun _ => step_of_not_valid, fun _ _ _ => step_of_drive_rejected, fun s r h => ?_⟩
  · obtain ⟨t, ht⟩ := step_completes_of_drive_none hv hd
    obtain ⟨hcfg, hdrive⟩ := stepKeepsConfiguration s t ht
    exact ⟨t, ht, hcfg ▸ hv, hdrive hd⟩
  · by_cases hv : s.cfg.Valid
    · exact .inr (drive_rejected_of_step_refused hv h)
    · exact .inl hv

end Sys2Proof.Machine
end

section
/-! PROOFS of the family 60_exceptions, the order of simultaneous events: O7. Each order is the effect of the one event
followed by the effect of the other. -/
namespace Sys2Proof.Machine

theorem handleAll_pair {e f : Event} {s t u : State} (he : handle e s = .next t) (hf : handle f t = .next u) :
    handleAll [e, f] s = .next u :=
  (handleAll_cons_of_next [f] he).trans (handleAll_cons_of_next [] hf)

/-- An acknowledgment or a reset packet leaves the gate open and answers nobody (R94, R95). -/
theorem handle_openingPacket {p : Packet} {s : State} (hv : s.cfg.Valid)
    (hp : p.b0 = s.cfg.tagAck ∨ p.b0 = s.cfg.tagReset) :
    ∃ t, handle (.packet p) s = .next t ∧ t.inflight = false ∧ t.responses = s.responses := by
  obtain ha | hr := hp
  · exact ⟨_, handle_ack hv ha, rfl, rfl⟩
  · exact ⟨_, handle_resetPacket hv hr, rfl, rfl⟩

theorem handle_setd_of_closed {k : HostCmd} {s : State} (ho : k.op = 0x01#8) (hg : s.inflight = true) :
    handle (.command k) s = .next { s with responses := s.responses ++ [⟨.busy, 0x00⟩] } :=
  handle_command_of_effect (decodeCommand_of_setd ho) (.setdBusy _ _ _ _ _ _ hg)

/-- R166(a), the packet first. -/
theorem handleAll_openingPacket_setd {p : Packet} {k : HostCmd} {s : State} (hv : s.cfg.Valid)
    (hp : p.b0 = s.cfg.tagAck ∨ p.b0 = s.cfg.tagReset) (ho : k.op = 0x01#8) :
    ∃ t, handleAll [.packet p, .command k] s = .next t ∧ t.inflight = true ∧
      t.responses = s.responses ++ [⟨.ok, 0x00⟩] := by
  obtain ⟨t, ht, hopen, hresp⟩ := handle_openingPacket hv hp
  exact ⟨_, handleAll_pair ht (handle_setd_of_open ho hopen), rfl, by rw [hresp]⟩

/-- R166(a), the command first. -/
theorem handleAll_setd_openingPacket {p : Packet} {k : HostCmd} {s : State} (hv : s.cfg.Valid)
    (hg : s.inflight = true) (hp : p.b0 = s.cfg.tagAck ∨ p.b0 = s.cfg.tagReset) (ho : k.op = 0x01#8) :
    ∃ t, handleAll [.command k, .packet p] s = .next t ∧ t.inflight = false ∧
      t.responses = s.responses ++ [⟨.busy, 0x00⟩] := by
  obtain ⟨t, ht, hopen, hresp⟩ :=
    handle_openingPacket (s := { s with responses := s.responses ++ [⟨.busy, 0x00⟩] }) hv hp
  exact ⟨t, handleAll_pair (handle_setd_of_closed ho hg) ht, hopen, hresp⟩

theorem handle_buttonPacket {p : Packet} {s : State} (hp : p.b0 = s.cfg.tagBiocEvent) :
    handle (.packet p) s = .next { s with btn := compose p.b1 p.b2 } :=
  handle_packet_of_effect (decodePacket_of_tagBiocEvent hp) (.pktBioc p.b1 p.b2)

/-- R166(c), the packet first: the old request is replayed, then the new one is sent. -/
theorem handleAll_resetPacket_setd {p : Packet} {k : HostCmd} {s : State} (hv : s.cfg.Valid)
    (hp : p.b0 = s.cfg.tagReset) (ho : k.op = 0x01#8) :
    ∃ t, handleAll [.packet p, .command k] s = .next t ∧ t.inflight = true ∧
      t.out = s.out ++ [[s.cfg.cmdBiocOn], [s.cfg.cmdLedUsr], encodeRequest s.cfg s.last,
        encodeRequest s.cfg (requestOf k)] :=
  ⟨_, handleAll_pair (handle_resetPacket hv hp) (handle_setd_of_open ho rfl), rfl, List.append_assoc ..⟩

/-- R166(c), the command first: the new request is sent and then replayed. -/
theorem handleAll_setd_resetPacket {p : Packet} {k : HostCmd} {s : State} (hv : s.cfg.Valid)
    (hg : s.inflight = false) (hp : p.b0 = s.cfg.tagReset) (ho : k.op = 0x01#8) :
    ∃ t, handleAll [.command k, .packet p] s = .next t ∧ t.inflight = false ∧
      t.out = s.out ++ [encodeRequest s.cfg (requestOf k), [s.cfg.cmdBiocOn], [s.cfg.cmdLedUsr],
        encodeRequest s.cfg (requestOf k)] := by
  have hsetd := handle_setd_of_open ho hg
  exact ⟨_, handleAll_pair hsetd (handle_resetPacket hv hp), rfl, List.append_assoc ..⟩

/-- Settles O7: the cases (a) to (c), both orders each, and the one response of a command. -/
theorem orderOfSimultaneousEventsShows : Obligations.OrderOfSimultaneousEventsShows := by
  refine ⟨fun s p k hv hg hp ho => ⟨handleAll_openingPacket_setd hv hp ho, handleAll_setd_openingPacket hv hg hp ho⟩,
    fun s p k hp ho hk => ⟨?_, ?_⟩,
    fun s p k hv hg hp ho => ⟨handleAll_resetPacket_setd hv hp ho, handleAll_setd_resetPacket hv hg hp ho⟩,
    fun s k => ?_⟩
  · exact ⟨_, handleAll_pair (handle_buttonPacket hp) (handle_goodRead _ ho hk), rfl, rfl⟩
  · have hread := handle_goodRead s ho hk
    exact ⟨_, handleAll_pair hread (handle_buttonPacket hp), rfl, rfl⟩
  · obtain ⟨t, r, ht, hresp, -⟩ := response_of_command s k
    exact ⟨t, r, ht, hresp⟩

end Sys2Proof.Machine
end

section
/-! PROOFS of the family 60_exceptions, the two errors: O30. -/
namespace Sys2Proof.Machine

/-- An operation that answers is Busy, is InvalidArgument, or answers OK and is none of those that raise an error; an
error is answered with data 0, as the only change (R161, R162). -/
theorem exec_response_cases {i : Instr} {s t : State} {r : Response} (h : exec i s = .next t)
    (hr : t.responses = s.responses ++ [r]) :
    (r.status = .busy ∧ (isSetd i = true ∧ s.inflight = true) ∧ ¬ (i = .rdb false ∨ ∃ op, i = .badcmd op) ∧
      t = { s with responses := s.responses ++ [⟨r.status, 0x00⟩] }) ∨
    (r.status = .invalid ∧ isSetd i = false ∧ (i = .rdb false ∨ ∃ op, i = .badcmd op) ∧
      t = { s with responses := s.responses ++ [⟨r.status, 0x00⟩] }) ∨
    (r.status = .ok ∧ ¬ (isSetd i = true ∧ s.inflight = true) ∧ ¬ (i = .rdb false ∨ ∃ op, i = .badcmd op)) := by
  cases exec_iff_effect.mp h
  case setdBusy hg =>
    obtain rfl : ⟨.busy, 0x00⟩ = r := by simpa using hr
    exact .inl ⟨rfl, ⟨rfl, hg⟩, by simp, rfl⟩
  case rdbBad =>
    obtain rfl : ⟨.invalid, 0x00⟩ = r := by simpa using hr
    exact .inr (.inl ⟨rfl, rfl, .inl rfl, rfl⟩)
  case badcmd op =>
    obtain rfl : ⟨.invalid, 0x00⟩ = r := by simpa using hr
    exact .inr (.inl ⟨rfl, rfl, .inr ⟨op, rfl⟩, rfl⟩)
  case setdAdmitted hg =>
    obtain rfl : ⟨.ok, 0x00⟩ = r := by simpa using hr
    exact .inr (.inr ⟨rfl, by simp [hg], by simp⟩)
  case init =>
    obtain rfl : ⟨.ok, 0x00⟩ = r := by simpa using hr
    exact .inr (.inr ⟨rfl, by simp [isSetd], by simp⟩)
  case rdbGood =>
    obtain rfl : ⟨.ok, s.btn⟩ = r := by simpa using hr
    exact .inr (.inr ⟨rfl, by simp [isSetd], by simp⟩)
  all_goals simp at hr

/-- Behind an operation that opens the gate a set-display is admitted (R161). -/
theorem exec_setd_ok_of_opensGate {i : Instr} {s t : State} (d0 d1 d2 d3 en dp : Byte) (hi : opensGate i = true)
    (h : exec i s = .next t) :
    ∃ u, exec (.setd d0 d1 d2 d3 en dp) t = .next u ∧ u.responses = t.responses ++ [⟨.ok, 0x00⟩] := by
  have hopen : t.inflight = false := by simp [exec_inflight h, hi, isSetd_of_opensGate hi]
  exact ⟨_, exec_of_effect (.setdAdmitted _ _ _ _ _ _ hopen), rfl⟩

/-- Settles O30: the three kinds of answer exclude each other. -/
theorem errorsChangeNothing : Obligations.ErrorsChangeNothing := by
  refine ⟨fun i s t r h hr => ?_, fun _ _ _ d0 d1 d2 d3 en dp => exec_setd_ok_of_opensGate d0 d1 d2 d3 en dp, rfl, rfl⟩
  obtain ⟨hst, hsetd, hinv, ht⟩ | ⟨hst, hsetd, hinv, ht⟩ | ⟨hst, hsetd, hinv⟩ := exec_response_cases h hr
  · exact ⟨iff_of_true hst hsetd, iff_of_false (by simp [hst]) hinv, fun _ => ht⟩
  · exact ⟨iff_of_false (by simp [hst]) (by simp [hsetd]), iff_of_true hst hinv, fun _ => ht⟩
  · exact ⟨iff_of_false (by simp [hst]) hsetd, iff_of_false (by simp [hst]) hinv, fun hne => absurd hst hne⟩

end Sys2Proof.Machine
end

section
/-! PROOFS of the family 60_exceptions, the rights of the two contexts: O44. What a context cannot do is the frame of
its operations (O18, O31); what it can do is one event of it. -/
namespace Sys2Proof.Machine

theorem isPacket_of_channel {i : Instr} (h : i.channel = .inbound) : isPacket i = true := by
  cases i
  case pktBioc | pktReset | pktAck | pktUnk => rfl
  all_goals cases h

/-- The receive context writes neither `LAST` nor a closed gate, and only `Compose` values to `BTN`. -/
theorem handle_packet_rights {p : Packet} {s t : State} (h : handle (.packet p) s = .next t) :
    t.last = s.last ∧ (t.inflight = s.inflight ∨ t.inflight = false) ∧
      (t.btn = s.btn ∨ ∃ b1 b2, t.btn = compose b1 b2) := by
  obtain ⟨⟨hlast, -⟩, -, hflag, -, hbtn⟩ :=
    packetFrame _ s t (isPacket_of_channel (decodePacket_channel s.cfg p)) h
  refine ⟨hlast, ?_, hbtn.imp_right fun ⟨b1, b2, _, hb⟩ => ⟨b1, b2, hb⟩⟩
  cases hf : t.inflight with
  | false => exact .inr rfl
  | true => exact .inl (hflag hf).symm

/-- The request context does not open the gate and writes only 0 to `BTN`. -/
theorem handle_command_rights {k : HostCmd} {s t : State} (h : handle (.command k) s = .next t) :
    (s.inflight = true → t.inflight = true) ∧ (t.btn = s.btn ∨ t.btn = 0x00#8) := by
  obtain ⟨-, hbtn, -, hflag, -⟩ := hostCommandFrame _ s t (decodeCommand_channel k) h
  exact ⟨fun hs => (hflag hs).2, hbtn.imp_right And.right⟩

/-- The set-display command whose operands are the fields of a request. -/
def setdOf (r : DisplayRequest) : HostCmd :=
  ⟨0x01, r.d0.setWidth 8, r.d1.setWidth 8, r.d2.setWidth 8, r.d3.setWidth 8, r.en.setWidth 8, r.dp.setWidth 8, false⟩

theorem lowNibble_setWidth (n : Nibble) : lowNibble (n.setWidth 8) = n := by
  simp [lowNibble]

theorem requestOf_setdOf (r : DisplayRequest) : requestOf (setdOf r) = r := by
  simp only [requestOf, setdOf, reduceRequest, lowNibble_setWidth]

/-- Settles O44. -/
theorem rightsOfTheTwoContexts : Obligations.RightsOfTheTwoContexts :=
  ⟨fun _ _ _ => handle_packet_rights,
    fun _ _ _ => handle_command_rights,
    fun s b1 b2 => ⟨_, _, handle_bioc s b1 b2, rfl⟩,
    fun s hv => ⟨⟨s.cfg.tagAck, 0x00, 0x00⟩, _, handle_ack hv rfl, rfl⟩,
    fun _ r hg => ⟨setdOf r, _, handle_setd_of_open rfl hg, requestOf_setdOf r, rfl⟩,
    fun s => ⟨⟨0x02, 0, 0, 0, 0, 0, 0, true⟩, _, handle_goodRead s rfl rfl, rfl⟩⟩

end Sys2Proof.Machine
end

section
/-! PROOFS of the family 60_exceptions, noninterference: O53. Two runs that start with different values of one register
stay equal but for that register as long as no operation shows it, and the register itself is not observed. -/
namespace Sys2Proof.Machine

/-- `set` writes one register: it touches neither the configuration nor what is observed, and the reset does not carry
the register's value into another field. -/
structure WritesHiddenRegister {α : Type} (set : α → State → State) : Prop where
  cfg : ∀ a s, (set a s).cfg = s.cfg
  observed : ∀ a s, observed (set a s) = observed s
  reset : ∀ a s, ∃ b, hardReset (set a s) = set b (hardReset s)

theorem setBtn_writesHiddenRegister : WritesHiddenRegister State.setBtn :=
  ⟨fun _ _ => rfl, fun _ _ => rfl, fun _ _ => ⟨0x00, rfl⟩⟩

theorem setInflight_writesHiddenRegister : WritesHiddenRegister State.setInflight :=
  ⟨fun _ _ => rfl, fun _ _ => rfl, fun _ _ => ⟨false, rfl⟩⟩

theorem setLast_writesHiddenRegister : WritesHiddenRegister State.setLast :=
  ⟨fun _ _ => rfl, fun _ _ => rfl, fun _ s => ⟨Config.resetLast s.draws, rfl⟩⟩

/-- The operation `i` does not let the register that `set` writes reach another field. -/
def Hides {α : Type} (set : α → State → State) (i : Instr) : Prop :=
  ∀ (a : α) (s t : State), exec i s = .next t → ∃ b, exec i (set a s) = .next (set b t)

/-- `BTN` shows in a good read only (R174). -/
theorem hides_btn {i : Instr} (hi : i ≠ .rdb true) : Hides State.setBtn i := by
  intro v s t h
  cases exec_iff_effect.mp h
  case pktBioc b1 b2 => exact ⟨compose b1 b2, exec_of_effect (.pktBioc b1 b2)⟩
  case rdbGood => exact absurd rfl hi
  case setdBusy hg => exact ⟨v, exec_of_effect (.setdBusy _ _ _ _ _ _ hg)⟩
  case setdAdmitted hg => exact ⟨v, exec_of_effect (.setdAdmitted _ _ _ _ _ _ hg)⟩
  all_goals exact ⟨v, exec_of_effect (by constructor)⟩

/-- `INFLIGHT` shows in a set-display only (R174). -/
theorem hides_inflight {i : Instr} (hi : isSetd i = false) : Hides State.setInflight i := by
  intro b s t h
  cases exec_iff_effect.mp h
  case pktReset => exact ⟨false, exec_of_effect .pktReset⟩
  case pktAck => exact ⟨false, exec_of_effect .pktAck⟩
  case setdBusy | setdAdmitted => cases hi
  all_goals exact ⟨b, exec_of_effect (by constructor)⟩

/-- `LAST` shows in a reset packet only (R174). -/
theorem hides_last {i : Instr} (hi : i ≠ .pktReset) : Hides State.setLast i := by
  intro r s t h
  cases exec_iff_effect.mp h
  case pktReset => exact absurd rfl hi
  case setdBusy hg => exact ⟨r, exec_of_effect (.setdBusy _ _ _ _ _ _ hg)⟩
  case setdAdmitted d0 d1 d2 d3 en dp hg =>
    exact ⟨reduceRequest d0 d1 d2 d3 en dp, exec_of_effect (.setdAdmitted _ _ _ _ _ _ hg)⟩
  all_goals exact ⟨r, exec_of_effect (by constructor)⟩

theorem handle_set_of_hides {α : Type} {set : α → State → State} (hset : WritesHiddenRegister set) {e : Event}
    {s t : State} (he : ∀ i, eventInstr s.cfg e = some i → Hides set i) (a : α) (h : handle e s = .next t) :
    ∃ b, handle e (set a s) = .next (set b t) := by
  obtain ⟨rfl, rfl⟩ | ⟨i, hi, hx⟩ := handle_next_cases h
  · obtain ⟨b, hb⟩ := hset.reset a s
    exact ⟨b, congrArg _ hb⟩
  · rw [handle_eq_exec (s := set a s) ((hset.cfg a s).symm ▸ hi)]
    exact he i hi a s t hx

theorem handleAll_set_of_hides {α : Type} {set : α → State → State} (hset : WritesHiddenRegister set)
    {es : List Event} {s t : State} (he : ∀ e ∈ es, ∀ i, eventInstr s.cfg e = some i → Hides set i) (a : α)
    (h : handleAll es s = .next t) : ∃ b, handleAll es (set a s) = .next (set b t) := by
  induction es generalizing s a with
  | nil => cases h; exact ⟨a, rfl⟩
  | cons e es ih =>
    obtain ⟨u, hu, ht⟩ := (handleAll_cons e es s t).mp h
    obtain ⟨b, hb⟩ := handle_set_of_hides hset (he e List.mem_cons_self) a hu
    rw [handleAll_cons_of_next es hb]
    refine ih (fun f hf => ?_) b ht
    rw [handle_cfg hu]
    exact he f (List.mem_cons_of_mem e hf)

/-- No sequence of events that hide a register tells apart two states that differ in it only. -/
theorem observed_handleAll_set {α : Type} {set : α → State → State} (hset : WritesHiddenRegister set)
    {es : List Event} {s t : State} (he : ∀ e ∈ es, ∀ i, eventInstr s.cfg e = some i → Hides set i) (a : α)
    (h : handleAll es s = .next t) : ∃ t', handleAll es (set a s) = .next t' ∧ observed t' = observed t := by
  obtain ⟨b, hb⟩ := handleAll_set_of_hides hset he a h
  exact ⟨_, hb, hset.observed b t⟩

/-- Settles O53: one register after the other, each hidden by every operation but the excluded one. -/
theorem registersSeenOnlyThroughTheirOperation : Obligations.RegistersSeenOnlyThroughTheirOperation := by
  refine ⟨fun es s t v he => ?_, fun es s t b he => ?_, fun es s t r he => ?_⟩
  · exact observed_handleAll_set setBtn_writesHiddenRegister
      (fun e hmem i hi => hides_btn fun heq => he e hmem (heq ▸ hi)) v
  · exact observed_handleAll_set setInflight_writesHiddenRegister
      (fun e hmem i hi => hides_inflight (by simpa [eventIsSetd, hi] using he e hmem)) b
  · exact observed_handleAll_set setLast_writesHiddenRegister
      (fun e hmem i hi => hides_last fun heq => he e hmem (heq ▸ hi)) r

end Sys2Proof.Machine
end

section
/-! PROOFS of the family 70_reset_and_hazards: O9, O50 and O52. Behind a closed gate the only event that still sends is
`INIT`; behind a reset without a set-display the draw in `LAST` is what a reset packet replays. -/
namespace Sys2Proof.Machine

/-- Settles O9. -/
theorem hardwareResetEvent : Obligations.HardwareResetEvent := fun s =>
  ⟨hardReset s, rfl, hardReset_btn s, hardReset_inflight s, hardReset_out s, hardReset_cfg s⟩

/-! ### Runs behind a closed gate -/

/-- The send requests of `PeriphInit` (R130). -/
def IsInitSend (c : Cfg) (l : List Byte) : Prop := l = [c.cmdBiocOn] ∨ l = [c.cmdLedUsr]

/-- An operation of an event that neither finds the gate open nor opens it sends initialisation bytes only: a
set-display is rejected, so `INIT` alone is left to send. -/
theorem exec_sends_of_closed {i : Instr} {s t : State} (hc : i.channel ≠ .outbound) (hi : opensGate i = false)
    (hg : s.inflight = true) (h : exec i s = .next t) :
    ∃ ls, t.out = s.out ++ ls ∧ ∀ l ∈ ls, IsInitSend s.cfg l := by
  cases exec_iff_effect.mp h
  case init => exact ⟨_, rfl, by simp [IsInitSend]⟩
  case setdAdmitted hopen => simp [hg] at hopen
  case pktReset | pktAck => cases hi
  case biocOn | ledUsr | ledSet3 | ledSet4 => exact absurd rfl hc
  all_goals exact ⟨[], by simp, by simp⟩

/-- What a run from `s` keeps while nothing opens the gate (R195): `t` has the request of `s` still in flight, and only
initialisation bytes were sent since. -/
structure StillInFlight (s t : State) : Prop where
  cfg : t.cfg = s.cfg
  closed : t.inflight = true
  request : t.last = s.last
  sent : ∃ ls, t.out = s.out ++ ls ∧ ∀ l ∈ ls, IsInitSend s.cfg l

theorem stillInFlight_refl {s : State} (hg : s.inflight = true) : StillInFlight s s :=
  ⟨rfl, hg, rfl, [], by simp, by simp⟩

theorem exec_keeps_stillInFlight {i : Instr} {s t u : State} (hc : i.channel ≠ .outbound)
    (hi : opensGate i = false) (ht : StillInFlight s t) (h : exec i t = .next u) : StillInFlight s u := by
  obtain ⟨hcfg, hclosed, hrequest, ls, hls, hinit⟩ := ht
  obtain ⟨hcfg', -⟩ := exec_keeps_model_fields h
  obtain ⟨ms, hms, hinit'⟩ := exec_sends_of_closed hc hi hclosed h
  have hlast : u.last = t.last := (exec_last_cases h).resolve_right (by simp [hclosed])
  exact {
    cfg := hcfg'.trans hcfg
    closed := by simp [exec_inflight h, hclosed, hi]
    request := hlast.trans hrequest
    sent := ⟨ls ++ ms, by rw [hms, hls, List.append_assoc],
      List.forall_mem_append.mpr ⟨hinit, hcfg ▸ hinit'⟩⟩ }

theorem handle_keeps_stillInFlight {e : Event} {s t u : State} (he : eventOpensGate s.cfg e = false)
    (ht : StillInFlight s t) (h : handle e t = .next u) : StillInFlight s u := by
  rw [← ht.cfg] at he
  obtain ⟨rfl, -⟩ | ⟨i, hi, hx⟩ := handle_next_cases h
  · simp [eventOpensGate, eventInstr] at he
  · exact exec_keeps_stillInFlight (eventInstr_channel_ne_outbound hi)
      (by simpa [eventOpensGate, hi] using he) ht hx

/-- Settles O50: the run keeps the request in flight, and in its last state a set-display finds the gate closed. -/
theorem gateStaysClosed : Obligations.GateStaysClosed := by
  intro es s hg he
  obtain ⟨t, ht⟩ := handleAll_completes es s
  have hkept : StillInFlight s t :=
    handleAll_keeps (P := StillInFlight s) (fun e hmem _ _ => handle_keeps_stillInFlight (he e hmem))
      (stillInFlight_refl hg) ht
  obtain ⟨-, hclosed, hrequest, ls, hout, hinit⟩ := hkept
  exact ⟨t, ls, ht, hclosed, hrequest, hout, hinit,
    fun _ _ _ _ _ _ => exec_of_effect (.setdBusy _ _ _ _ _ _ hclosed)⟩

/-! ### The replay before any request -/

/-- Neither a reset nor a set-display in a run: `LAST` stays (R25, R29). -/
theorem handleAll_last_of_no_setd {es : List Event} {s t : State}
    (he : ∀ e ∈ es, e ≠ .rst ∧ eventIsSetd s.cfg e = false) (h : handleAll es s = .next t) : t.last = s.last := by
  refine (handleAll_last_cases (fun e hmem => (he e hmem).1) h).resolve_right ?_
  rintro ⟨pre, k, post, -, rfl, ho, -⟩
  have hnot := (he (.command k) (by simp)).2
  simp [eventIsSetd_iff.mpr ⟨k, rfl, ho⟩] at hnot

/-- A byte a display position can be sent: a segment entry, with or without the decimal point (R72). -/
def IsPatternByte (c : Cfg) (b : Byte) : Prop :=
  ∃ n : Fin 16, b = c.seg[n.val] ∨ b = c.seg[n.val] ||| c.dpBit

theorem pattern_isPatternByte (c : Cfg) (digit : Nibble) (point : Bool) : IsPatternByte c (pattern c digit point) := by
  refine ⟨digit.toFin, ?_⟩
  cases point with
  | false => exact .inl (pattern_without_point c digit)
  | true => exact .inr rfl

/-- The header and the length of the two forms (R111). -/
theorem encodeRequest_header (c : Cfg) (r : DisplayRequest) :
    ((encodeRequest c r).take 2 = [c.cmdLedSet, 0x07] ∧ (encodeRequest c r).length = 5) ∨
    ((encodeRequest c r).take 2 = [c.cmdLedSet, 0x0F] ∧ (encodeRequest c r).length = 6) := by
  by_cases h : r.en = enSpecial
  · rw [encodeRequest_of_enSpecial c h]; exact .inl ⟨rfl, rfl⟩
  · rw [encodeRequest_of_not_enSpecial c h]; exact .inr ⟨rfl, rfl⟩

/-- Behind the header every byte is a pattern (R72, R111). -/
theorem encodeRequest_patternBytes (c : Cfg) (r : DisplayRequest) :
    ∀ b ∈ (encodeRequest c r).drop 2, IsPatternByte c b := by
  by_cases h : r.en = enSpecial
  · rw [encodeRequest_of_enSpecial c h]
    simp [ledSet3Bytes, pattern0, pattern1, pattern2, pattern_isPatternByte]
  · rw [encodeRequest_of_not_enSpecial c h]
    simp [ledSet4Bytes, pattern0, pattern1, pattern2, pattern3, pattern_isPatternByte]

/-- Settles O52: the draw of the reset is still in `LAST` when the packet replays it, and the encoding of any request,
whatever was drawn, has one of the two forms. -/
theorem replayBeforeAnyRequest : Obligations.ReplayBeforeAnyRequest := by
  intro s es p hv hp he
  obtain ⟨u, hu⟩ := handleAll_completes es (hardReset s)
  have hlast : u.last = Config.resetLast s.draws := handleAll_last_of_no_setd (s := hardReset s) he hu
  have hcfg : u.cfg = s.cfg := handleAll_cfg (s := hardReset s) hu
  have hreset := handle_resetPacket (hcfg ▸ hv) (hcfg ▸ hp)
  have hrun := (handleAll_concat es (.packet p) (hardReset s) _).mpr ⟨u, hu, hreset⟩
  exact ⟨_, u.out ++ [[s.cfg.cmdBiocOn], [s.cfg.cmdLedUsr]], _, hrun, by simp [hcfg, hlast], rfl,
    encodeRequest_header _ _, encodeRequest_patternBytes _ _⟩

end Sys2Proof.Machine
end

section
/-! PROOFS of the family other: O11. A hardware reset is handled by `hardReset`, which decodes nothing (R73); what it
and `State.reset` put into each field is their definition. -/
namespace Sys2Proof.Machine

theorem handle_rst (s : State) : handle .rst s = .next (hardReset s) := rfl

/-- Settles O11: the event is handled by `hardReset`, and each field of `State.reset` holds what the log chose. -/
theorem modelFieldsAtReset : Obligations.ModelFieldsAtReset :=
  ⟨handle_rst, rfl, rfl, rfl, rfl, rfl, rfl⟩

end Sys2Proof.Machine
end
